-- ==== Sys2Proof/Word.lean ====
section
/-! DEFINITION. The word types of the NFC (spec 00_scope.md R9): bit 0 is the least significant bit. -/

namespace Sys2Proof

/-- A 32-bit word: a command word, a result word, a control-port register, `PageCounter` (R26, R41, R90, R93). -/
abbrev Word := BitVec 32

/-- A byte of `BUF`, of the NAND bus or of the serial link (R22, R38, R100). -/
abbrev Byte := BitVec 8

/-- The level of one pin or the value of a one-bit flag: `true` is 1, `false` is 0 (R11, R21). -/
abbrev Level := Bool

end Sys2Proof
end

