-- ==== Sys2Proof/Config.lean ====
section
/-! DEFINITION. The OPEN parameters of the NFC (spec 00_scope.md R7, 70_reset_and_hazards.md R252) and the free values
that the environment or an unspecified register supplies. Every constraint the spec puts on a parameter holds by
construction: a parameter that must be at least `m` is stored as what it exceeds `m` by. -/

namespace Sys2Proof

/-- The named timing parameters of R252, as they appear in the pin trace (R33). -/
inductive TimeParam where
  | tCS | tWP | tCLH | tALH | t5CS | t5DS | t5WP | t5WH | tREA | tREH | tRST | tRSETTLE
deriving DecidableEq, Repr, Inhabited

/-- A positive real number. -/
abbrev PosReal := {x : ℝ // 0 < x}

/-- The timing parameters of R252 and `T_CLK_NS` (R7), real numbers of nanoseconds, each as what it exceeds the bound of
R128 and R252 by: `NNReal` where the spec writes `>=`, `PosReal` where it writes `>`. That the values R252 marks "~" are
exact bounds is a DESIGN CHOICE (notes/assumptions/10.md). No step reads them. -/
structure Timing where
  csExtra      : NNReal
  wpExtra      : NNReal
  clhExtra     : NNReal
  alhExtra     : NNReal
  cs5Extra     : PosReal
  ds5          : PosReal
  wp5Extra     : PosReal
  wh5Extra     : PosReal
  rea          : PosReal
  reh          : NNReal
  rstExtra     : NNReal
  rsettle      : PosReal
  clkNs        : PosReal
deriving Nonempty

/-- `PINMAP` (R24): the pin that carries `IO[0]`, and the seven control lines. -/
structure PinMap where
  ioBase : Nat
  cle    : Nat
  ale    : Nat
  ce     : Nat
  re     : Nat
  we     : Nat
  wp     : Nat
  ry     : Nat
deriving DecidableEq, Repr, Inhabited

/-- The physical pin of `IO[k]`: the eight lines are numbered contiguously (R9, R24). -/
def PinMap.ioPin (m : PinMap) (k : Fin 8) : Nat := m.ioBase + k.val

/-- The OPEN parameters of R7 that a step reads or the control port shows. They are arguments of the model: `State` carries
them and no step changes them. -/
structure Params where
  cmdqExtra     : Nat
  resqExtra     : Nat
  bufExtra      : Nat
  ryExtra       : Option Nat
  wpLevel       : Level
  driveStrength : Word
  pinMap        : PinMap
deriving DecidableEq, Repr, Inhabited

/-- `CMDQ_DEPTH`, an integer at least 1 (R7, R36). -/
def Params.cmdqDepth (p : Params) : Nat := p.cmdqExtra + 1

/-- `RESQ_DEPTH`, an integer at least 1 (R7, R37). -/
def Params.resqDepth (p : Params) : Nat := p.resqExtra + 1

/-- `BUF_SIZE`, at least 4352, the largest payload (R7, R8, R38). -/
def Params.bufSize (p : Params) : Nat := p.bufExtra + 4352

/-- `RY_TIMEOUT`: `none` waits for ever, `some n` gives up after `n >= 1` polls (R7, R127). -/
def Params.ryTimeout (p : Params) : Option Nat := p.ryExtra.map (· + 1)

/-- The lower bound of a `Wait`, in nanoseconds: the four numbers of the source and the orderings of R128 and R252. -/
noncomputable def Timing.bound (t : Timing) : TimeParam → ℝ
  | .tCS      => 20 + t.csExtra
  | .tWP      => 12 + t.wpExtra
  | .tCLH     => 12 + t.clhExtra
  | .tALH     => 12 + t.clhExtra + t.alhExtra
  | .t5CS     => 20 + t.csExtra + t.cs5Extra
  | .t5DS     => t.ds5
  | .t5WP     => 12 + t.wpExtra + t.wp5Extra
  | .t5WH     => 12 + t.clhExtra + t.alhExtra + t.wh5Extra
  | .tREA     => t.rea
  | .tREH     => t.reh
  | .tRST     => 600000 + t.rstExtra
  | .tRSETTLE => t.rsettle

/-- The bus-cycle period `T_CLK_NS`, a positive real number of nanoseconds (R7). -/
def Timing.clk (t : Timing) : ℝ := t.clkNs

/-- The least number of bus cycles a `Wait(T)` lasts: `ceil(T / T_CLK_NS)` (R128, R252). -/
noncomputable def Timing.minCycles (t : Timing) (p : TimeParam) : Nat := ⌈t.bound p / t.clk⌉₊

/-- The parameters of the NFC at hand: OPEN, so nothing is known of them (R7). DESIGN CHOICE (notes/assumptions/4.md):
the state carries them, and the state after reset has these. -/
opaque Config.params : Params

/-- The timing parameters of the NFC at hand: OPEN (R7, R252). -/
noncomputable opaque Config.timing : Timing

/-- Free value: the byte the chip presents at a `Sample()` that no listed input answers (R23, U18). DESIGN CHOICE
(notes/assumptions/3.md). -/
opaque Config.freeByte : Nat → Byte

/-- Free value: the level of RY at a poll that no listed input answers (R23, U18). DESIGN CHOICE
(notes/assumptions/3.md). -/
opaque Config.freeRy : Nat → Level

/-- Free value: what a register holds where the spec says its value is unspecified (R29, R200). -/
opaque Config.freeWord : Nat → Word

end Sys2Proof
end

