-- ==== Sys2Proof/Syntax.lean ====
section
/-! DEFINITION. The instructions of the NFC: one constructor for each row of spec/opcode_table.json (R108), and the code
in which each format carries it. -/

namespace Sys2Proof

/-- One constructor per row of the opcode table: the seven dispatcher Commands (format CMDQ32, R90, R91), the four
command cycles of the NAND bus (format NANDCMD8, R98) and the six host bytes (format SERIAL8, R100). -/
inductive Instr where
  | readId
  | readPage
  | rstpc
  /-- `SETPC n`, `n = zext_32(arg)` (R92, R168). -/
  | setpc (n : Word)
  | getdrv
  | getinfo
  | noOp
  | nandReset
  | nandReadId
  | nandReadSetup
  | nandReadConfirm
  | hostReadId
  | hostReadPage
  | hostResetCounter
  /-- Host byte `'3'` with its three argument bytes in arrival order (R101, R105). -/
  | hostSetCounter (b0 b1 b2 : Byte)
  | hostGetDrive
  | hostGetInfo
deriving DecidableEq, Repr, Inhabited

/-- The three formats of the opcode table (R108). -/
inductive Format where
  | cmdq32
  | nandcmd8
  | serial8
deriving DecidableEq, Repr

/-- An instruction as its carrier holds it: a whole 32-bit queue entry, which has no byte order (R61), a byte of a NAND
command cycle, or the bytes of the serial link in arrival order. -/
inductive Code where
  | cmdq (w : Word)
  | nandcmd (b : Byte)
  | serial (bs : List Byte)
deriving DecidableEq, Repr

def Code.format : Code → Format
  | .cmdq _    => .cmdq32
  | .nandcmd _ => .nandcmd8
  | .serial _  => .serial8

/-- A decoded Command: a tag and a 24-bit argument (R29, R91). -/
structure Command where
  tag : BitVec 3
  arg : BitVec 24
deriving DecidableEq, Repr, Inhabited

end Sys2Proof
end

