-- ==== Sys2Proof/WellFormed.lean ====
section
/-! DEFINITION. Which terms of `Instr` an encoding exists for. -/

namespace Sys2Proof

/-- The argument of `SETPC` is the zero extension of a 24-bit field: `0 <= n < 2^24` (R92, R106). Every other operand
is a byte, all of whose values occur. -/
def Instr.wellFormed : Instr → Bool
  | .setpc n => decide (n.toNat < 2 ^ 24)
  | .readId | .readPage | .rstpc | .getdrv | .getinfo | .noOp => true
  | .nandReset | .nandReadId | .nandReadSetup | .nandReadConfirm => true
  | .hostReadId | .hostReadPage | .hostResetCounter => true
  | .hostSetCounter _ _ _ | .hostGetDrive | .hostGetInfo => true

end Sys2Proof
end

