-- ==== Sys2Proof/Decode.lean ====
section
/-! DEFINITION. The decoder of the three formats (spec 30_encoding.md R90 to R92, R98, R100, R101, R105), total on
every code, and the encoder written from the same tables. -/

namespace Sys2Proof

/-! ### Format CMDQ32 -/

/-- The fields `tag` (26:24) and `arg` (23:0) of a command word; `rsv` (31:27) is ignored (R90). -/
def Command.ofWord (w : Word) : Command :=
  { tag := w.extractLsb' 24 3, arg := w.extractLsb' 0 24 }

/-- Decoding of `tag`, total (R91); the argument is used by tag 3 alone (R92). -/
def decodeCommand (c : Command) : Instr :=
  match c.tag.toNat with
  | 0 => .readId
  | 1 => .readPage
  | 2 => .rstpc
  | 3 => .setpc (c.arg.setWidth 32)
  | 4 => .getdrv
  | 5 => .getinfo
  | _ => .noOp

/-! ### Format NANDCMD8 -/

/-- The four opcodes of R98 are the whole set. -/
def decodeNandByte (b : Byte) : Option Instr :=
  if b = 0xFF#8 then some .nandReset
  else if b = 0x90#8 then some .nandReadId
  else if b = 0x00#8 then some .nandReadSetup
  else if b = 0x30#8 then some .nandReadConfirm
  else none

/-! ### Format SERIAL8 -/

/-- What the pending host bytes hold for the Serial Command Interface (R100, R105). -/
inductive HostFetch where
  /-- No byte has arrived. -/
  | empty
  /-- The byte `'3'` with fewer than three argument bytes. -/
  | incomplete
  /-- A byte outside `'0'` to `'5'`, and what follows it. -/
  | unknown (rest : List Byte)
  /-- A whole instruction, and what follows it. -/
  | complete (i : Instr) (rest : List Byte)
deriving DecidableEq, Repr

/-- The first byte alone tells the length: `'3'` takes exactly three more, every other byte none (R105). -/
def fetchSerial : List Byte → HostFetch
  | [] => .empty
  | b :: rest =>
    if b = 0x30#8 then .complete .hostReadId rest
    else if b = 0x31#8 then .complete .hostReadPage rest
    else if b = 0x32#8 then .complete .hostResetCounter rest
    else if b = 0x33#8 then
      match rest with
      | b0 :: b1 :: b2 :: rest' => .complete (.hostSetCounter b0 b1 b2) rest'
      | _ => .incomplete
    else if b = 0x34#8 then .complete .hostGetDrive rest
    else if b = 0x35#8 then .complete .hostGetInfo rest
    else .unknown rest

/-! ### The decoder and the encoder -/

/-- The instruction a code stands for; `none` where the format has no such instruction. -/
def decode : Code → Option Instr
  | .cmdq w    => some (decodeCommand (Command.ofWord w))
  | .nandcmd b => decodeNandByte b
  | .serial bs =>
    match fetchSerial bs with
    | .complete i [] => some i
    | _ => none

/-- The code of an instruction: R106 for CMDQ32 (`rsv` and the unused `arg` are 0), R98 for NANDCMD8, R100 for
SERIAL8. -/
def encode : Instr → Code
  | .readId   => .cmdq 0x00000000#32
  | .readPage => .cmdq 0x01000000#32
  | .rstpc    => .cmdq 0x02000000#32
  | .setpc n  => .cmdq (0x03000000#32 + n)
  | .getdrv   => .cmdq 0x04000000#32
  | .getinfo  => .cmdq 0x05000000#32
  | .noOp     => .cmdq 0x06000000#32
  | .nandReset       => .nandcmd 0xFF#8
  | .nandReadId      => .nandcmd 0x90#8
  | .nandReadSetup   => .nandcmd 0x00#8
  | .nandReadConfirm => .nandcmd 0x30#8
  | .hostReadId       => .serial [0x30#8]
  | .hostReadPage     => .serial [0x31#8]
  | .hostResetCounter => .serial [0x32#8]
  | .hostSetCounter b0 b1 b2 => .serial [0x33#8, b0, b1, b2]
  | .hostGetDrive     => .serial [0x34#8]
  | .hostGetInfo      => .serial [0x35#8]

/-- The code that an opcode-table word of `nbits` bits stands for: a queue entry for the 32-bit rows; for the 8-bit rows
a host byte where it is one of `'0'` to `'5'`, followed for `'3'` by argument bytes of zeros, and else a NAND opcode.
DESIGN CHOICE (notes/assumptions/8.md): the byte 0x30 stands in both 8-bit formats and is read as the host byte. -/
def tableCode (nbits w : Nat) : Code :=
  if nbits ≤ 8 then
    let b := BitVec.ofNat 8 w
    if b = 0x33#8 then .serial [b, 0x00#8, 0x00#8, 0x00#8]
    else if 0x30 ≤ b.toNat ∧ b.toNat ≤ 0x35 then .serial [b]
    else .nandcmd b
  else .cmdq (BitVec.ofNat 32 w)

/-- The instruction the decoder reads from an opcode-table word. -/
def decodeTableWord (nbits w : Nat) : Option Instr := decode (tableCode nbits w)

/-! ### Pseudo-instructions (R107) and the host dump driver (R202) -/

/-- `DUMP k`: `RSTPC`, then `k` times `READPAGE`. -/
def pseudoDump (k : Nat) : List Instr := .rstpc :: List.replicate k .readPage

/-- `READAT n`: `SETPC n`, then `READPAGE`. -/
def pseudoReadAt (n : Word) : List Instr := [.setpc n, .readPage]

/-- The host bytes of the dump driver: `'2'` once, then `'1'` repeatedly. -/
def dumpDriverBytes (k : Nat) : List Byte := 0x32#8 :: List.replicate k 0x31#8

end Sys2Proof
end

