-- ==== Sys2Proof/Machine/State.lean ====
section
/-! DEFINITION. The state of the NFC (spec 10_state.md), of the reference control-side agent (43_control_side.md) and of
the environment's inputs, as plain data, and the state after hard reset (R52, R240). -/

namespace Sys2Proof.Machine

/-! ### Pins and the pin trace -/

/-- `IO_DIR` (R22). -/
inductive IoDir where
  | input
  | output
deriving DecidableEq, Repr

/-- The output pins (R21). -/
inductive Pin where
  | cle | ale | cen | ren | wen | wpn
deriving DecidableEq, Repr

/-- The output pin registers (R21) and the I/O line registers (R22). -/
structure Pins where
  cle   : Level
  ale   : Level
  cen   : Level
  ren   : Level
  wen   : Level
  wpn   : Level
  ioDir : IoDir
  ioOut : Byte
deriving DecidableEq, Repr

/-- One event of the pin trace (R33). -/
inductive PinEvent where
  | pin (p : Pin) (v : Level)
  | ioDir (d : IoDir)
  | ioOut (b : Byte)
  | sample (b : Byte)
  | ry (v : Level)
  | wait (t : TimeParam)
deriving DecidableEq, Repr

/-! ### Data registers and flags -/

/-- The five IdentificationBytes (R27, R99): maker, device, chip count and cell level, page size, block size and I/O
width, district count. -/
structure IdBytes where
  b0 : Byte
  b1 : Byte
  b2 : Byte
  b3 : Byte
  b4 : Byte
deriving DecidableEq, Repr

/-- FlashGeometry, three 32-bit byte counts (R28). -/
structure Geometry where
  pageSize  : Word
  spareSize : Word
  totalSize : Word
deriving DecidableEq, Repr

/-- The four sticky flags (R35). -/
structure Flags where
  geomValid   : Level
  errGeometry : Level
  errIoWidth  : Level
  errNotReady : Level
deriving DecidableEq, Repr

/-! ### The sequencer -/

/-- `phase` (R30). -/
inductive Phase where
  | init | run | halted
deriving DecidableEq, Repr

/-- `wstate` (R31). -/
inductive WState where
  | waitForCommand | execute | publishResult
deriving DecidableEq, Repr

/-- Where `ReadBytes` and `ReadId` put the bytes (R126, R142). -/
inductive Dest where
  | buf | bootId
deriving DecidableEq, Repr

/-- What `ReadBytes`, `ReadId` and `ReadPage` return (R126, R129). -/
inductive Ret where
  | ok | notReady
deriving DecidableEq, Repr

/-- The operations whose numbered micro-steps the sequencer runs: the bus primitives (R120, R122, R124, R126), the
protocol engine's (R140, R142, R148), the two commands with more than one micro-step (R165, R166) and the startup
sequence (R242). -/
inductive Op where
  | assertCommand (b : Byte)
  | assertSingleAddressByte (b : Byte)
  | assertRowColumnAddress (pageNumber column : Word)
  | readBytes (count : Nat) (dest : Dest)
  | reset
  | readId (dest : Dest)
  | readPage (pageNumber : Word) (payloadSize : Nat)
  | cmdReadId
  | cmdReadPage
  | startup
deriving DecidableEq, Repr

/-- One entry of `seq` (R32): an operation and the position of its next micro-step, counted from 0, so that position
`k` is the spec's line `k + 1`. `loc` is the operation's own local: the index of the clear loop and then the payload
size, in `READPAGE` (R166); unused elsewhere. DESIGN CHOICE (notes/assumptions/20.md). -/
structure Frame where
  op   : Op
  line : Nat
  loc  : Nat
deriving DecidableEq, Repr

/-! ### The control side -/

/-- A control-port transaction (R40). -/
inductive Txn where
  | regRead (off : Nat)
  | regWrite (off : Nat) (v : Word)
  | bufRead (i : Nat)
deriving DecidableEq, Repr

/-- The response of a completed transaction (R40, R64). -/
inductive Response where
  | word (w : Word)
  | byte (b : Byte)
  | written
  | portErr
deriving DecidableEq, Repr

/-- The stage of a host byte's exchange (R190, R193 to R196): `RegWrite(0x00, w)` is next, `RegRead(0x04)` is next, or
`BufRead(idx)` of `size` bytes is next with the bytes `got` read so far. -/
inductive Stage where
  | push
  | pop
  | copy (size idx : Nat) (got : List Byte)
deriving DecidableEq, Repr

/-- Where the Serial Command Interface stands (R191, R244): it polls STATUS, reads the three sizes, is stopped because
the NFC halted, waits for a host byte, or serves one. -/
inductive CtlPos where
  | bootPoll
  | bootPage
  | bootSpare
  | bootTotal
  | stopped
  | idle
  | serve (i : Instr) (st : Stage)
deriving DecidableEq, Repr

/-- What the Serial Command Interface reports to the host (R193 to R199), without the text rendering that
00_scope.md R6 leaves out; the one line that is fixed is kept as its characters (R198). DESIGN CHOICE
(notes/assumptions/15.md). No report shows the displayed page counter: whether it is printed is not given (R200, N14),
and that it is not is a DESIGN CHOICE (notes/assumptions/7.md). -/
inductive Report where
  | idBytes (bs : List Byte)
  | page (bs : List Byte)
  | error (size : Int)
  | driveStrength (w : Word)
  | line (text : List Char)
  | help
  | argTimeout
deriving DecidableEq, Repr

/-- The control-side agent C (R190, R191, R204). `held` is a transaction that a control side other than the Serial
Command Interface has begun and that holds; `sizes` is its copy of the geometry registers; `shownPage` is the displayed
page counter (R51, R200); `responses`, every transaction that has completed with its response, and `reports` are
histories, oldest first. -/
structure Control where
  pos       : CtlPos
  held      : Option Txn
  serialIn  : List Byte
  sizes     : Geometry
  shownPage : Word
  responses : List (Txn × Response)
  reports   : List Report
deriving DecidableEq, Repr

/-! ### The environment -/

/-- One thing that happens next: a turn of the worker engine W, a turn of the Serial Command Interface, a transaction of
an arbitrary control side (R204), a host byte arriving, the bounded wait for an argument byte ending (R196), or the hard
reset (R240). -/
inductive Input where
  | worker
  | control
  | port (t : Txn)
  | hostByte (b : Byte)
  | argTimeout
  | hardReset
deriving DecidableEq, Repr

/-- What the outside of the machine does, oldest first. `inputs` is the interleaving of the agents (R12); when it is
empty W takes the turn. `ryIn` and `sampleIn` are the chip's next answers to `RY()` and `Sample()` (R23); when one is
empty the answer is a free value of Config, numbered by `freeIndex`, which also numbers the unspecified register
values. -/
structure Env where
  inputs    : List Input
  ryIn      : List Level
  sampleIn  : List Byte
  freeIndex : Nat
deriving DecidableEq, Repr

/-! ### The whole state -/

/-- The Shared Bulk Buffer (R38): the bytes that are not 0x00, by strictly rising index (`Memory.wf` of Ops.lean). An
index that is not listed reads as 0x00, the byte R52 gives it at reset: DEDUCED (notes/assumptions/22.md). -/
abbrev Memory := List Host.Cell

/-- The state of the machine (R20), the control side's, and the environment's. -/
structure State where
  /-- The OPEN parameters (R7); no step changes them. -/
  params        : Params
  /-- `PINMAP` (R24). -/
  pinMap        : PinMap
  /-- `DRIVE_STRENGTH` (R25). -/
  driveStrength : Word
  /-- The pin registers (R21, R22). -/
  pins          : Pins
  /-- `PageCounter` (R26). -/
  pageCounter   : Word
  /-- `BOOT_ID` (R27). -/
  bootId        : IdBytes
  /-- `BOOT_ID_VALID` (R27). -/
  bootIdValid   : Level
  /-- `GEOM` (R28). -/
  geom          : Option Geometry
  /-- `CUR_CMD` (R29). -/
  curCmd        : Command
  /-- `CUR_RES` (R29). -/
  curRes        : Word
  /-- `phase` (R30). -/
  phase         : Phase
  /-- `wstate` (R31). -/
  wstate        : WState
  /-- `seq` (R32), the innermost operation first. -/
  seq           : List Frame
  /-- The return value `r` of the last `ReadBytes`, `ReadId` or `ReadPage` (R126, R142, R148). The model's own field, `ok`
  at reset: DESIGN CHOICE (notes/assumptions/20.md). -/
  ret           : Ret
  /-- `byte_idx` (R34). -/
  byteIdx       : Nat
  /-- `ry_polls` (R34). -/
  ryPolls       : Nat
  /-- The fatal flags and `GEOM_VALID` (R35). -/
  flags         : Flags
  /-- `CMDQ` (R36), oldest first. -/
  cmdq          : List Word
  /-- `RESQ` (R37), oldest first. -/
  resq          : List Word
  /-- `BUF` (R38). -/
  buf           : Memory
  /-- The pin trace (R33), oldest first. -/
  trace         : List PinEvent
  /-- Agent C. -/
  control       : Control
  /-- Agent N, the schedule and the free values. -/
  env           : Env
deriving DecidableEq, Repr

/-- The reset levels of the pins (R52). -/
def Pins.reset (wpLevel : Level) : Pins :=
  { cle := false, ale := false, cen := true, ren := true, wen := true, wpn := wpLevel,
    ioDir := .input, ioOut := 0x00#8 }

/-- The first micro-step of the startup sequence (R52): line 1 of `AssertCommand(0xFF)`, called by line 1 of `Reset()`,
called by line 1 of R242; each caller's entry holds the position it goes on at. -/
def startupSeq : List Frame :=
  [{ op := .assertCommand 0xFF#8, line := 0, loc := 0 }, { op := .reset, line := 1, loc := 0 },
   { op := .startup, line := 1, loc := 0 }]

/-- The control side as both cores start (R225, R244). DESIGN CHOICE (notes/assumptions/6.md): its own variables start
at zero. -/
def Control.reset : Control :=
  { pos := .bootPoll, held := none, serialIn := [],
    sizes := { pageSize := 0#32, spareSize := 0#32, totalSize := 0#32 },
    shownPage := 0#32, responses := [], reports := [] }

/-- The environment with no input listed: every answer of the chip is a free value. -/
def Env.reset : Env := { inputs := [], ryIn := [], sampleIn := [], freeIndex := 0 }

/-- The state after hard reset of an NFC with the parameters `p` (R52). `CUR_CMD` and `CUR_RES`, whose reset values R52
leaves unspecified, start at zero: DESIGN CHOICE (notes/assumptions/1.md). -/
def State.resetFor (p : Params) : State :=
  { params := p, pinMap := p.pinMap, driveStrength := p.driveStrength,
    pins := Pins.reset p.wpLevel,
    pageCounter := 0#32,
    bootId := { b0 := 0x00#8, b1 := 0x00#8, b2 := 0x00#8, b3 := 0x00#8, b4 := 0x00#8 },
    bootIdValid := false,
    geom := none,
    curCmd := { tag := 0#3, arg := 0#24 }, curRes := 0#32,
    phase := .init, wstate := .waitForCommand, seq := startupSeq, ret := .ok,
    byteIdx := 0, ryPolls := 0,
    flags := { geomValid := false, errGeometry := false, errIoWidth := false, errNotReady := false },
    cmdq := [], resq := [], buf := [], trace := [],
    control := Control.reset, env := Env.reset }

/-- The machine right after reset (R52, R240), with the parameters of the NFC at hand. -/
def State.reset : State := State.resetFor Config.params

/-- Why a step stops with a fault. Every one of these is safe: it can only make a true claim unprovable. No state that a
run reaches raises one (Sys2Proof/Safety.lean names the invariants that rule them out). -/
inductive Fault where
  /-- `READPAGE`, or the page-read engine started alone, found no geometry. Raised by READPAGE's line 3 and by a start of
  NAND_READ_SETUP or NAND_READ_CONFIRM; safe. The spec gives a page read an effect only with a geometry present
  (R166), and forbids a default one (R28). -/
  | geometryAbsent
  /-- `ReadBytes` was asked for more bytes than its destination has. Raised by its line 10d; safe. The operand range of
  R126 excludes it, and the spec defines no overrun (decision D32). -/
  | storeOutOfRange
deriving DecidableEq, Repr

/-- Why a step refuses an instruction. -/
inductive Refusal where
  /-- An instruction that has no meaning yet, by its mnemonic. Raised by exec's arm for it (no arm of this model raises
  it); safe. -/
  | notModelled (mnemonic : String)
deriving DecidableEq, Repr

end Sys2Proof.Machine
end

