-- ==== Sys2Proof/Machine/Operands.lean ====
section
/-! DEFINITION. Operand assembly and the pure decoders: the five address bytes (R96, R102), the page number of host byte
`'3'` (R101), the sizes (R103, R146), the ID decoder (R144, R147, R153) and the register packings (R45, R47). -/

namespace Sys2Proof.Machine

/-- The number of pages, `64 x 2048 = 2^17` (R7, R146). -/
def pageLimit : Nat := 64 * 2048

/-- The one recognised maker code (R7, R99, R144). -/
def makerCode : Byte := 0x98#8

/-- NANDADDR5 (R96): column-low, column-high (5 bits), row-low, row-mid, row-high (1 bit). Bits of the page number above
16 and of the column above 12 do not reach the bus (R102). -/
def addressBytes (pageNumber column : Word) : List Byte :=
  [column.extractLsb' 0 8, (column.extractLsb' 8 5).setWidth 8,
   pageNumber.extractLsb' 0 8, pageNumber.extractLsb' 8 8, (pageNumber.extractLsb' 16 1).setWidth 8]

/-- The page number of host byte `'3'`: `zext({b2[0], b1[7:0], b0[7:0]})` (R101). -/
def hostPageNumber (b0 b1 b2 : Byte) : Word := ((b2.extractLsb' 0 1 ++ b1) ++ b0).setWidth 32

/-- The command word of `SETPC n` as the Serial Command Interface forms it (R101). -/
def setpcWord (n : Word) : Word := 0x03000000#32 + n

/-- A geometry with `total_size = 64 * 2048 * (page_size + spare_size)` (R103, R146). -/
def geometryOf (pageSize spareSize : Nat) : Geometry :=
  { pageSize := BitVec.ofNat 32 pageSize, spareSize := BitVec.ofNat 32 spareSize,
    totalSize := BitVec.ofNat 32 (pageLimit * (pageSize + spareSize)) }

/-- The geometry of page-size code 1 (R144). -/
def geometry2048 : Geometry := geometryOf 2048 128

/-- The geometry of page-size code 2 (R144). -/
def geometry4096 : Geometry := geometryOf 4096 256

/-- `payload_size = page_size + spare_size` (R103). -/
def Geometry.payload (g : Geometry) : Nat := g.pageSize.toNat + g.spareSize.toNat

/-- `page_size_code = id[3][1:0]` (R99): PRESUMED by the spec itself (notes/assumptions/13.md). -/
def IdBytes.pageSizeCode (id : IdBytes) : BitVec 2 := id.b3.extractLsb' 0 2

/-- `DecodeGeometry` (R144): exactly one maker and two page-size codes are recognised; there is no default. -/
def decodeGeometry (id : IdBytes) : Option Geometry :=
  if id.b0 = makerCode then
    if id.pageSizeCode = 1#2 then some geometry2048
    else if id.pageSizeCode = 2#2 then some geometry4096
    else none
  else none

/-- `CheckIoWidth` (R147): `id[3][6] = 0` is the 8-bit organisation: PRESUMED by the spec itself
(notes/assumptions/13.md). -/
def checkIoWidth (id : IdBytes) : Bool := id.b3.extractLsb' 6 1 = 0#1

/-- `BOOT_ID[i] <- b` (R27, R126 line 10d). -/
def IdBytes.set (id : IdBytes) (i : Nat) (b : Byte) : IdBytes :=
  match i with
  | 0 => { id with b0 := b }
  | 1 => { id with b1 := b }
  | 2 => { id with b2 := b }
  | 3 => { id with b3 := b }
  | 4 => { id with b4 := b }
  | _ => id

/-- `{BOOT_ID[3], BOOT_ID[2], BOOT_ID[1], BOOT_ID[0]}` (R47). -/
def IdBytes.word0 (id : IdBytes) : Word := id.b3 ++ id.b2 ++ id.b1 ++ id.b0

/-- `{0x000000, BOOT_ID[4]}` (R47). -/
def IdBytes.word1 (id : IdBytes) : Word := id.b4.setWidth 32

/-- The line host byte `'5'` prints: the three sizes in decimal, separated by commas (R198). -/
def geometryLine (g : Geometry) : List Char :=
  Nat.toDigits 10 g.pageSize.toNat ++ [','] ++ Nat.toDigits 10 g.spareSize.toNat ++ [','] ++
    Nat.toDigits 10 g.totalSize.toNat

end Sys2Proof.Machine
end

