-- ==== Sys2Proof/Machine/Flags.lean ====
section
/-! DEFINITION. The flags: how the startup sequence sets them (R35, R215, R217, R242) and how STATUS shows them with the
queue and phase bits (R44). The NFC has no condition codes. -/

namespace Sys2Proof.Machine

/-- Any of the three ERR flags (R242 line 7). -/
def Flags.anyError (f : Flags) : Bool := f.errGeometry || f.errIoWidth || f.errNotReady

/-- R242 line 5: a geometry sets `GEOM_VALID`, none sets `ERR_GEOMETRY`. -/
def Flags.afterGeometry (f : Flags) : Option Geometry → Flags
  | some _ => { f with geomValid := true }
  | none   => { f with errGeometry := true }

/-- R242 line 6: a rejected I/O width sets `ERR_IOWIDTH`. -/
def Flags.afterWidth (f : Flags) (accepted : Bool) : Flags :=
  if accepted then f else { f with errIoWidth := true }

/-- R242 line 3: no ID was read. -/
def Flags.afterNotReady (f : Flags) : Flags := { f with errNotReady := true }

/-- `STATUS.BUSY` (R44). -/
def State.busy (s : State) : Bool :=
  match s.phase with
  | .init   => true
  | .run    => s.wstate != .waitForCommand
  | .halted => false

/-- The fields of STATUS, bit 0 first (R44). -/
def State.statusBits (s : State) : List Bool :=
  [s.phase == .run, s.phase == .halted, s.flags.geomValid, s.flags.errGeometry, s.flags.errIoWidth,
   s.flags.errNotReady, s.cmdq.length == s.params.cmdqDepth, !s.resq.isEmpty, s.busy]

/-- The number whose bit `k` is the `k`-th entry. -/
def packBits : List Bool → Nat
  | [] => 0
  | b :: bs => b.toNat + 2 * packBits bs

/-- `STATUS` as read; bits 31:9 read as 0 (R44). -/
def State.status (s : State) : Word := BitVec.ofNat 32 (packBits s.statusBits)

end Sys2Proof.Machine
end

