-- ==== Sys2Proof/Machine/Ops.lean ====
section
/-! DEFINITION. The named operations every meaning is written over: the Shared Bulk Buffer (R10, R38, R68), the queues
(R70, R71), the pins and the pin trace (R10, R21, R22, R33), the environment's answers (R23), results and failures
(R212), the end of the startup sequence (R216), hard reset (R240, R241), and the control port (R40 to R48, R64).

The NFC takes no exception and returns from none (R210). What stands in their place is `State.fail`, the failure value of
a command, and `State.endStartup`, the entry to HALTED; `State.hardReset` is the only way back. -/

namespace Sys2Proof.Machine

/-- What one atomic step answers. -/
abbrev Result := Host.Outcome State Fault Refusal

/-! ### The Shared Bulk Buffer -/

/-- `MemRead(BUF, a, 1)` (R10): an unlisted index reads as 0x00 (R52). -/
def Memory.read : Memory → Nat → Byte
  | [], _ => 0x00#8
  | (k, b) :: m, a => if k = a then b else Memory.read m a

/-- `MemWrite(BUF, a, 1, v)` (R10), keeping the canonical form: 0x00 removes the entry. -/
def Memory.write : Memory → Nat → Byte → Memory
  | [], a, v => if v = 0x00#8 then [] else [(a, v)]
  | (k, b) :: m, a, v =>
    if a < k then (if v = 0x00#8 then (k, b) :: m else (a, v) :: (k, b) :: m)
    else if a = k then (if v = 0x00#8 then m else (a, v) :: m)
    else (k, b) :: Memory.write m a v

/-- The canonical form from index `lo` on: strictly rising indices, and no byte equal to what an unlisted index reads
as. -/
def Memory.wfFrom (lo : Nat) : Memory → Bool
  | [] => true
  | (k, b) :: m => decide (lo ≤ k) && b != 0x00#8 && Memory.wfFrom (k + 1) m

/-- The canonical form. -/
def Memory.wf (m : Memory) : Bool := Memory.wfFrom 0 m

/-- Every listed index lies inside a buffer of `size` bytes (R38). -/
def Memory.within (m : Memory) (size : Nat) : Bool := m.all (fun c => decide (c.1 < size))

/-- `count` consecutive bytes from index `a`. -/
def Memory.readBytes (m : Memory) (a : Nat) : Nat → List Byte
  | 0 => []
  | n + 1 => m.read a :: m.readBytes (a + 1) n

/-- Write a list of bytes at consecutive indices from `a`, in increasing order (R68). -/
def Memory.writeBytes (m : Memory) (a : Nat) : List Byte → Memory
  | [] => m
  | b :: bs => (m.write a b).writeBytes (a + 1) bs

/-! ### The queues -/

/-- `Enq(Q, w)` (R70): `none` is the hold of an agent that finds the queue full. -/
def enq (depth : Nat) (q : List Word) (w : Word) : Option (List Word) :=
  if q.length < depth then some (q ++ [w]) else none

/-- `Deq(Q)` (R71): `none` is the hold of an agent that finds the queue empty. -/
def deq : List Word → Option (Word × List Word)
  | [] => none
  | w :: q => some (w, q)

/-! ### Pins -/

/-- The register of an output pin takes a level (R21). -/
def Pins.set (p : Pins) : Pin → Level → Pins
  | .cle, v => { p with cle := v }
  | .ale, v => { p with ale := v }
  | .cen, v => { p with cen := v }
  | .ren, v => { p with ren := v }
  | .wen, v => { p with wen := v }
  | .wpn, v => { p with wpn := v }

/-- Append one event to the pin trace (R33). -/
def State.emit (s : State) (e : PinEvent) : State := { s with trace := s.trace ++ [e] }

/-- `Pin(P) <- v` (R10, R21). -/
def State.drive (s : State) (p : Pin) (v : Level) : State :=
  { s with pins := s.pins.set p v, trace := s.trace ++ [.pin p v] }

/-- `IO_DIR <- d` (R10, R22). -/
def State.setDir (s : State) (d : IoDir) : State :=
  { s with pins := { s.pins with ioDir := d }, trace := s.trace ++ [.ioDir d] }

/-- `IO_OUT <- b`: all eight lines in one pin event (R10, R22). -/
def State.setOut (s : State) (b : Byte) : State :=
  { s with pins := { s.pins with ioOut := b }, trace := s.trace ++ [.ioOut b] }

/-- What the NFC drives on the I/O lines: `IO_OUT` while `IO_DIR = OUT`, nothing while `IO_DIR = IN` (R22). -/
def Pins.lines (p : Pins) : Option Byte :=
  match p.ioDir with
  | .output => some p.ioOut
  | .input  => none

/-- The least number of bus cycles the waits of a pin trace last (R128, R252). -/
noncomputable def traceMinCycles (t : Timing) : List PinEvent → Nat
  | [] => 0
  | .wait p :: es => t.minCycles p + traceMinCycles t es
  | _ :: es => traceMinCycles t es

/-! ### The environment's answers and the free values -/

/-- `RY()` (R10, R23), without its event: the next listed answer, or a free value. -/
def Env.ry (e : Env) : Level × Env :=
  match e.ryIn with
  | v :: vs => (v, { e with ryIn := vs })
  | [] => (Config.freeRy e.freeIndex, { e with freeIndex := e.freeIndex + 1 })

/-- `Sample()` (R10, R23), without its event: the next listed answer, or a free value. -/
def Env.sample (e : Env) : Byte × Env :=
  match e.sampleIn with
  | b :: bs => (b, { e with sampleIn := bs })
  | [] => (Config.freeByte e.freeIndex, { e with freeIndex := e.freeIndex + 1 })

/-- A register value the spec leaves unspecified. -/
def Env.word (e : Env) : Word × Env :=
  (Config.freeWord e.freeIndex, { e with freeIndex := e.freeIndex + 1 })

/-! ### Results, failures, the worker loop -/

/-- A command ends: `CUR_RES <- w`, and the loop goes on to PublishResult (R160). That the two lines of R160's loop are one
atomic step is a DESIGN CHOICE (notes/assumptions/24.md). -/
def State.finishCommand (s : State) (w : Word) : State := { s with curRes := w, wstate := .publishResult }

/-- `fail(cause)` (R10, R212): the result word is 0 for every cause, and nothing else records it. -/
def State.fail (s : State) : State := s.finishCommand 0x00000000#32

/-- R242 line 7, one atomic step: HALTED with any ERR flag set (R216), else RUN and the loop of R160. -/
def State.endStartup (s : State) : State :=
  if s.flags.anyError then { s with phase := .halted }
  else { s with phase := .run, wstate := .waitForCommand }

/-- WaitForCommand (R160, R161): `Deq(CMDQ)`, or no change while CMDQ is empty. That the dequeue, the decoding into CUR_CMD
and `wstate <- Execute` are one atomic step is a DESIGN CHOICE (notes/assumptions/24.md): R160's lines are unnumbered. -/
def State.takeCommand (s : State) : State :=
  match deq s.cmdq with
  | none => s
  | some (w, q) => { s with cmdq := q, curCmd := Command.ofWord w, wstate := .execute }

/-- PublishResult (R160, R163): `Enq(RESQ, CUR_RES)`, or no change while RESQ is full. CUR_CMD and CUR_RES are then
dead, with unspecified values (R29): free values (notes/assumptions/1.md). That the enqueue and
`wstate <- WaitForCommand` are one atomic step is a DESIGN CHOICE (notes/assumptions/24.md): R160's lines are
unnumbered. -/
def State.publish (s : State) : State :=
  match enq s.params.resqDepth s.resq s.curRes with
  | none => s
  | some q =>
    let (c, e) := s.env.word
    let (r, e') := e.word
    { s with resq := q, wstate := .waitForCommand, curCmd := Command.ofWord c, curRes := r, env := e' }

/-! ### Hard reset -/

/-- Hard reset (R240, R241): every piece of the NFC's state takes its reset value, the pin trace restarts empty, a held
transaction is abandoned and the control side starts anew (R225, R244). The chip, the host's bytes and the histories of
the control side are not the NFC's and stay (notes/assumptions/6.md). -/
def State.hardReset (s : State) : State :=
  { State.resetFor s.params with
    env := s.env,
    control := { Control.reset with
      serialIn := s.control.serialIn, responses := s.control.responses, reports := s.control.reports } }

/-! ### The control port -/

/-- The nine registers, as read without a side effect: offset 0x04, RESQ_POP, is `portAccess`'s. `none` is an offset
outside the map of R41. -/
def State.register (s : State) (off : Nat) : Option Word :=
  match off with
  | 0x00 => some 0#32
  | 0x08 => some s.status
  | 0x0C => some (s.geom.elim 0#32 Geometry.pageSize)
  | 0x10 => some (s.geom.elim 0#32 Geometry.spareSize)
  | 0x14 => some (s.geom.elim 0#32 Geometry.totalSize)
  | 0x18 => some s.driveStrength
  | 0x1C => some (if s.bootIdValid then s.bootId.word0 else 0#32)
  | 0x20 => some (if s.bootIdValid then s.bootId.word1 else 0#32)
  | _    => none

/-- The offsets whose writes are ignored (R41): every register but CMDQ_PUSH. -/
def readOnlyOffsets : List Nat := [0x04, 0x08, 0x0C, 0x10, 0x14, 0x18, 0x1C, 0x20]

/-- One transaction of the control port, one atomic step of agent C: its response and the state after it, or `none`
while it holds (R40 to R48, R64). -/
def portAccess (t : Txn) (s : State) : Option (Response × State) :=
  match t with
  | .regWrite off v =>
    if off = 0x00 then (enq s.params.cmdqDepth s.cmdq v).map (fun q => (.written, { s with cmdq := q }))
    else if off ∈ readOnlyOffsets then some (.written, s)
    else some (.portErr, s)
  | .regRead off =>
    if off = 0x04 then (deq s.resq).map (fun p => (.word p.1, { s with resq := p.2 }))
    else match s.register off with
      | some w => some (.word w, s)
      | none => some (.portErr, s)
  | .bufRead i =>
    if i < s.params.bufSize then some (.byte (s.buf.read i), s) else some (.portErr, s)

/-! ### The control side -/

/-- The Serial Command Interface moves to another position. -/
def State.setPos (s : State) (p : CtlPos) : State := { s with control := { s.control with pos := p } }

/-- The Serial Command Interface reports to the host. -/
def State.report (s : State) (r : Report) : State :=
  { s with control := { s.control with reports := s.control.reports ++ [r] } }

/-- A control side's transaction completes with a response (R40). -/
def State.respond (s : State) (t : Txn) (r : Response) : State :=
  { s with control := { s.control with responses := s.control.responses ++ [(t, r)] } }

/-- Agent C performs a transaction: the response and the state after it, with the response recorded, or `none` while it
holds. -/
def State.transact (s : State) (t : Txn) : Option (Response × State) :=
  (portAccess t s).map (fun p => (p.1, p.2.respond t p.1))

/-- The Serial Command Interface has handled a host byte. The displayed page counter may change in a way the spec does
not give (R51, R200): a free value (notes/assumptions/7.md). -/
def State.finishByte (s : State) (rs : List Report) : State :=
  let (w, e) := s.env.word
  { s with
    env := e,
    control := { s.control with
      pos := .idle, shownPage := w, reports := s.control.reports ++ rs } }

end Sys2Proof.Machine
end

