-- ==== Sys2Proof/Machine/Sequencer.lean ====
section
/-! DEFINITION. The sequencer of agent W: the numbered micro-steps of every operation, line by line as the spec numbers
them (40_bus_primitives.md, 41_protocol_engine.md, 42_dispatcher.md, 70_reset_and_hazards.md), and one atomic
micro-step (R32). No two micro-steps are fused. -/

namespace Sys2Proof.Machine

/-- One micro-step of an operation. Where a line branches, it names the position it goes to. Each numbered line is one
(DEDUCED); where a line has no pin event, wait or store of its own, whether it is one is a DESIGN CHOICE
(notes/assumptions/9.md, line by line). -/
inductive Micro where
  /-- Call another operation; its first micro-step is this line's. -/
  | call (o : Op)
  | setDir (d : IoDir)
  | setOut (b : Byte)
  | drive (p : Pin) (v : Level)
  /-- `Wait(T)` records its parameter; no time passes in the model: DESIGN CHOICE (notes/assumptions/21.md). -/
  | wait (t : TimeParam)
  /-- R126 line 7. -/
  | zeroPolls
  /-- R126 line 8, one poll. DESIGN CHOICE (notes/assumptions/19.md): R127 also allows a hold. -/
  | poll
  /-- R126 line 9. -/
  | zeroIdx
  /-- R126 line 10: go on while `byte_idx < count`, else to `done`. DESIGN CHOICE (notes/assumptions/9.md): the test is
  a micro-step of its own. -/
  | whileIdx (count done : Nat)
  /-- R126 lines 10c and 10d, one sample-and-store. -/
  | sampleStore (d : Dest)
  /-- R126 line 10g, and back to `top`. -/
  | nextIdx (top : Nat)
  /-- R126 line 11. DESIGN CHOICE (notes/assumptions/9.md): it is a micro-step of its own, and `return r` of R142 and
  R148 is none. -/
  | returnOk
  /-- R242 line 3: on `not_ready` set the flag and go to `done`. -/
  | checkReady (done : Nat)
  /-- R242 line 4. -/
  | latchIdValid
  /-- R242 line 5. -/
  | latchGeometry
  /-- R242 line 6. -/
  | latchWidth
  /-- R242 line 7. -/
  | endStartup
  /-- R165: the branch on `r`, one micro-step: DESIGN CHOICE (notes/assumptions/9.md). -/
  | endReadId
  /-- R166 line 1. -/
  | rejectNoPage
  /-- R166 line 2, one byte of the clear. -/
  | clearByte
  /-- R166 lines 3 and 4: the payload size, and the call of `ReadPage`. -/
  | beginRead
  /-- R166 line 5. -/
  | endReadPage
deriving DecidableEq, Repr

/-- Lines 5a to 5f of R124 for one address byte. DESIGN CHOICE (notes/assumptions/9.md): the loop header, line 5, is no
micro-step of its own. -/
def addressCycle (b : Byte) : List Micro :=
  [.setOut b, .wait .t5DS, .drive .wen false, .wait .t5WP, .drive .wen true, .wait .t5WH]

/-- The lines of R120 and R122: `latch` is CLE or ALE, `hold` its hold time. -/
def latchCycle (latch : Pin) (hold : TimeParam) (b : Byte) : List Micro :=
  [.setDir .output, .setOut b, .drive latch true, .drive .cen false, .wait .tCS, .drive .wen false,
   .wait .tWP, .drive .wen true, .wait hold, .drive latch false]

/-- The micro-steps of an operation, in the order of its numbered lines; past the last one the operation returns. DESIGN
CHOICE (notes/assumptions/9.md): the loop header of R124 line 5 has none, that of R126 line 10 has one, `return r` of
R142 and R148 has none, `return ok` of R126 has one. -/
def Op.body : Op → List Micro
  | .assertCommand b => latchCycle .cle .tCLH b
  | .assertSingleAddressByte b => latchCycle .ale .tALH b
  | .assertRowColumnAddress p c =>
    [.setDir .output, .drive .ale true, .drive .cen false, .wait .t5CS] ++
      (addressBytes p c).flatMap addressCycle ++ [.drive .ale false]
  | .readBytes count dest =>
    [.setDir .input, .drive .cle false, .drive .ale false, .drive .wen true, .drive .ren true,
     .drive .cen false, .zeroPolls, .poll, .zeroIdx, .whileIdx count 16, .drive .ren false, .wait .tREA,
     .sampleStore dest, .drive .ren true, .wait .tREH, .nextIdx 9, .returnOk]
  | .reset => [.call (.assertCommand 0xFF#8), .drive .cen true, .wait .tRST]
  | .readId dest =>
    [.call (.assertCommand 0x90#8), .call (.assertSingleAddressByte 0x00#8), .call (.readBytes 5 dest)]
  | .readPage p n =>
    [.call .reset, .call (.assertCommand 0x00#8), .call (.assertRowColumnAddress p 0#32),
     .call (.assertCommand 0x30#8), .wait .tRSETTLE, .call (.readBytes n .buf)]
  | .cmdReadId => [.call (.readId .buf), .endReadId]
  | .cmdReadPage => [.rejectNoPage, .clearByte, .beginRead, .endReadPage]
  | .startup =>
    [.call .reset, .call (.readId .bootId), .checkReady 6, .latchIdValid, .latchGeometry, .latchWidth,
     .endStartup]

/-- The entry of an operation at its first line. -/
def Op.start (o : Op) : Frame := { op := o, line := 0, loc := 0 }

/-- The line a frame stands at. -/
def Frame.micro? (f : Frame) : Option Micro := f.op.body[f.line]?

/-- Where W's next micro-step is: operations that are past their last line return to their caller, and a call enters
the operation it names, pushing the position to return to (R32). `fuel` bounds the returns and calls of one
micro-step; eight suffice, since calls nest at most four deep (R173). -/
def settleWith : Nat → List Frame → List Frame
  | 0, fs => fs
  | _ + 1, [] => []
  | fuel + 1, f :: fs =>
    match f.micro? with
    | none => settleWith fuel fs
    | some (.call o) => settleWith fuel (o.start :: { f with line := f.line + 1 } :: fs)
    | some _ => f :: fs

def settle (fs : List Frame) : List Frame := settleWith 8 fs

/-- The sequencer goes to position `line` of the operation of `f` (`seq <- s` of R10). -/
def State.goTo (s : State) (f : Frame) (fs : List Frame) (line : Nat) : State :=
  { s with seq := settle ({ f with line := line } :: fs) }

/-- The sequencer goes on to the next line. -/
def State.advance (s : State) (f : Frame) (fs : List Frame) : State := s.goTo f fs (f.line + 1)

/-- The operation of the innermost frame returns at once. -/
def State.returnFrom (s : State) (fs : List Frame) : State := { s with seq := settle fs }

/-- R126 line 8 after the poll has answered `v`: go on, poll again, or give up after `RY_TIMEOUT` polls that read 0. -/
def State.afterPoll (s : State) (f : Frame) (fs : List Frame) (v : Level) : State :=
  if v then s.advance f fs
  else
    let s' := { s with ryPolls := s.ryPolls + 1 }
    if s'.params.ryTimeout = some s'.ryPolls then ({ s' with ret := .notReady }).returnFrom fs else s'

/-- `dest[byte_idx] <- b` (R126 line 10d); `none` beyond the destination. -/
def State.storeByte (s : State) (d : Dest) (b : Byte) : Option State :=
  match d with
  | .buf => if s.byteIdx < s.params.bufSize then some { s with buf := s.buf.write s.byteIdx b } else none
  | .bootId => if s.byteIdx < 5 then some { s with bootId := s.bootId.set s.byteIdx b } else none

/-- One line of an operation: `f` is the innermost frame of `s.seq` and `fs` its callers. -/
def runMicro (m : Micro) (f : Frame) (fs : List Frame) (s : State) : Result :=
  match m with
  | .call _ => .next { s with seq := settle (f :: fs) }
  | .setDir d => .next ((s.setDir d).advance f fs)
  | .setOut b => .next ((s.setOut b).advance f fs)
  | .drive p v => .next ((s.drive p v).advance f fs)
  | .wait t => .next ((s.emit (.wait t)).advance f fs)
  | .zeroPolls => .next (({ s with ryPolls := 0 }).advance f fs)
  | .poll =>
    let (v, e) := s.env.ry
    .next ((({ s with env := e }).emit (.ry v)).afterPoll f fs v)
  | .zeroIdx => .next (({ s with byteIdx := 0 }).advance f fs)
  | .whileIdx count done =>
    if s.byteIdx < count then .next (s.advance f fs) else .next (s.goTo f fs done)
  | .sampleStore d =>
    let (b, e) := s.env.sample
    match (({ s with env := e }).emit (.sample b)).storeByte d b with
    | some s' => .next (s'.advance f fs)
    | none => .fault .storeOutOfRange
  | .nextIdx top => .next (({ s with byteIdx := s.byteIdx + 1 }).goTo f fs top)
  | .returnOk => .next (({ s with ret := .ok }).advance f fs)
  | .checkReady done =>
    match s.ret with
    | .ok => .next (s.advance f fs)
    | .notReady => .next (({ s with flags := s.flags.afterNotReady }).goTo f fs done)
  | .latchIdValid => .next (({ s with bootIdValid := true }).advance f fs)
  | .latchGeometry =>
    let g := decodeGeometry s.bootId
    .next (({ s with geom := g.or s.geom, flags := s.flags.afterGeometry g }).advance f fs)
  | .latchWidth => .next (({ s with flags := s.flags.afterWidth (checkIoWidth s.bootId) }).advance f fs)
  | .endStartup => .next (s.endStartup.advance f fs)
  | .endReadId =>
    match s.ret with
    | .ok => .next ((s.finishCommand 0x00000005#32).advance f fs)
    | .notReady => .next (s.fail.advance f fs)
  | .rejectNoPage =>
    if s.pageCounter.toNat < pageLimit then .next (s.advance f fs) else .next (s.fail.returnFrom fs)
  | .clearByte =>
    let s' := { s with buf := s.buf.write f.loc 0x00#8 }
    let f' := { f with loc := f.loc + 1 }
    if f'.loc < s.params.bufSize then .next (s'.goTo f' fs f.line)
    else if f.loc < s.params.bufSize then .next (s'.advance f' fs)
    else .fault .storeOutOfRange
  | .beginRead =>
    match s.geom with
    | none => .fault .geometryAbsent
    | some g =>
      .next { s with seq := settle ((Op.readPage s.pageCounter g.payload).start ::
                { f with line := f.line + 1, loc := g.payload } :: fs) }
  | .endReadPage =>
    match s.ret with
    | .ok =>
      .next ((({ s with pageCounter := s.pageCounter + 1#32 }).finishCommand (BitVec.ofNat 32 f.loc)).advance f fs)
    | .notReady => .next (s.fail.advance f fs)

/-- One atomic micro-step of agent W inside an operation (R32); none with no operation in progress. -/
def microStep (s : State) : Result :=
  match s.seq with
  | [] => .next s
  | f :: fs =>
    match f.micro? with
    | none => .next { s with seq := settle (f :: fs) }
    | some m => runMicro m f fs s

/-- The byte of BUF that the next micro-step stores to: the index of a sample-and-store into BUF (R126 line 10d) or of
one byte of the clear (R166 line 2). -/
def State.storeIndex (s : State) : Option Nat :=
  match s.seq with
  | [] => none
  | f :: _ =>
    match f.micro? with
    | some (.sampleStore .buf) => some s.byteIdx
    | some .clearByte => some f.loc
    | _ => none

/-- The NAND opcode of the bus operation in progress (R98): 0xFF inside `Reset()`, 0x90 inside `ReadId`, 0x00 and then
0x30 inside the rest of `ReadPage`. -/
def busOpcode : List Frame → Option Byte
  | [] => none
  | f :: fs =>
    match f.op with
    | .reset => some 0xFF#8
    | .readId _ => some 0x90#8
    | .readPage _ _ => if f.line ≤ 3 then some 0x00#8 else some 0x30#8
    | _ => busOpcode fs

/-- The operation at the bottom of `seq`: the command or the startup sequence that called all the others. -/
def outermostOp (fs : List Frame) : Option Op := fs.getLast?.map Frame.op

end Sys2Proof.Machine
end

