-- ==== Sys2Proof/Machine/Commands.lean ====
section
/-! DEFINITION. The seven dispatcher Commands (42_dispatcher.md R165 to R171): what agent W's next atomic step of Execute
does. READID and READPAGE take many micro-steps, which `seq` tells apart; the other five take one. DESIGN CHOICE
(notes/assumptions/12.md): the meaning of an instruction is its next atomic step. -/

namespace Sys2Proof.Machine

/-- The state in which the command whose operation is `o` takes its next micro-step: as it stands while the command is in
progress, and else at the command's first line. -/
def State.commandEntry (s : State) (o : Op) : State :=
  if outermostOp s.seq = some o then s else { s with seq := settle [o.start] }

/-- The no-op of R171: no state written, result 0. -/
def State.noOperation (s : State) : State := s.finishCommand 0x00000000#32

/-- READID (R165): `ReadId(BUF)`, then result 5, or 0 on `not_ready`. -/
def execReadId (s : State) : Result := microStep (s.commandEntry .cmdReadId)

/-- READPAGE (R166): reject at `PageCounter >= 2^17`; clear BUF; `ReadPage(PageCounter, n)`; result `n` and the next
page, or 0 on `not_ready`. -/
def execReadPage (s : State) : Result := microStep (s.commandEntry .cmdReadPage)

/-- RSTPC (R167): `PageCounter <- 0`, result 1. -/
def execRstpc (s : State) : Result := .next (({ s with pageCounter := 0#32 }).finishCommand 0x00000001#32)

/-- SETPC n (R168): a page number below 2^17 is accepted with result 1; any other is rejected with result 0. -/
def execSetpc (n : Word) (s : State) : Result :=
  if n.toNat < pageLimit then .next (({ s with pageCounter := n }).finishCommand 0x00000001#32)
  else .next s.fail

/-- GETDRV (R169): the worker has no arm for it; the no-op. -/
def execGetdrv (s : State) : Result := .next s.noOperation

/-- GETINFO (R170): the worker has no arm for it; the no-op. -/
def execGetinfo (s : State) : Result := .next s.noOperation

/-- NONE (R171): the no-op, with one result published. -/
def execNoOp (s : State) : Result := .next s.noOperation

end Sys2Proof.Machine
end

