-- ==== Sys2Proof/Machine/NandBus.lean ====
section
/-! DEFINITION. The four command cycles of the NAND bus with what follows each (30_encoding.md R98, 40_bus_primitives.md,
41_protocol_engine.md R140, R142, R148): what agent W's next atomic step inside that bus operation does. DESIGN CHOICE
(notes/assumptions/12.md): an operation that no caller has begun starts with the operands said here. -/

namespace Sys2Proof.Machine

/-- The state in which the bus operation of opcode `b` takes its next micro-step: as it stands while that operation is in
progress, and else with its frames called from where the sequencer stands. -/
def State.busEntry (s : State) (b : Byte) (frames : List Frame) : State :=
  if busOpcode s.seq = some b then s else { s with seq := settle (frames ++ s.seq) }

/-- The destination of a `ReadId` (R142): `BOOT_ID` in the startup sequence, BUF otherwise (R126). -/
def State.idDest (s : State) : Dest := if s.phase = .init then .bootId else .buf

/-- NAND_RESET, 0xFF (R98, R140): `Reset()`: the command cycle, CEn de-asserted, `Wait(T_RST)`. -/
def execNandReset (s : State) : Result := microStep (s.busEntry 0xFF#8 [Op.reset.start])

/-- NAND_READID, 0x90 (R98, R142): `ReadId(dest)`: the command cycle, one address cycle 0x00, five data-out cycles. -/
def execNandReadId (s : State) : Result := microStep (s.busEntry 0x90#8 [(Op.readId s.idDest).start])

/-- The page-read engine (R148) from position `line` on. Its operands come from `PageCounter` and from the geometry,
without which there is no payload size (R28). -/
def State.pageRead (s : State) (b : Byte) (line : Nat) : Result :=
  if busOpcode s.seq = some b then microStep s
  else match s.geom with
    | none => .fault .geometryAbsent
    | some g => microStep (s.busEntry b [{ op := .readPage s.pageCounter g.payload, line := line, loc := 0 }])

/-- NAND_READ_SETUP, 0x00 (R98, R148 lines 2 and 3): the command cycle and the five address cycles. -/
def execNandReadSetup (s : State) : Result := s.pageRead 0x00#8 1

/-- NAND_READ_CONFIRM, 0x30 (R98, R148 lines 4 to 6): the command cycle, `Wait(T_RSETTLE)`, the RY poll and the
payload's data-out cycles. -/
def execNandReadConfirm (s : State) : Result := s.pageRead 0x30#8 3

end Sys2Proof.Machine
end

