-- ==== Sys2Proof/Machine/Serial.lean ====
section
/-! DEFINITION. The six host bytes of the Serial Command Interface (43_control_side.md R190, R193 to R198): what agent C's
next atomic step of serving that byte does at the control port. -/

namespace Sys2Proof.Machine

/-- Where the Serial Command Interface stands in serving `i`: at the beginning unless it already serves it. -/
def State.stageOf (s : State) (i : Instr) : Stage :=
  match s.control.pos with
  | .serve j st => if j = i then st else .push
  | _ => .push

/-- One atomic step of the exchange of R190 for the host byte `i` that sends the command word `w`: push the word, pop the
result, test its size, and where a payload is expected read it byte by byte and report it. -/
def State.exchange (s : State) (i : Instr) (w : Word) (accept : Int → Bool)
    (payload : Option (List Byte → Report)) : State :=
  match s.stageOf i with
  | .push =>
    match s.transact (.regWrite 0x00 w) with
    | some (_, s') => s'.setPos (.serve i .pop)
    | none => s.setPos (.serve i .push)
  | .pop =>
    match s.transact (.regRead 0x04) with
    | some (.word r, s') =>
      if accept r.toInt then
        match payload with
        | some _ => s'.setPos (.serve i (.copy r.toNat 0 []))
        | none => s'.finishByte []
      else s'.finishByte [.error r.toInt]
    | _ => s.setPos (.serve i .pop)
  | .copy size idx got =>
    match s.transact (.bufRead idx), payload with
    | some (.byte b, s'), some rep =>
      if idx + 1 < size then s'.setPos (.serve i (.copy size (idx + 1) (got ++ [b])))
      else s'.finishByte [rep (got ++ [b])]
    | some (_, s'), _ => s'.finishByte [.error size]
    | none, _ => s

/-- `'0'` ReadId (R193): success is `0 < s <= 5`. -/
def execHostReadId (s : State) : Result :=
  .next (s.exchange .hostReadId 0x00000000#32 (fun n => decide (0 < n ∧ n ≤ 5)) (some .idBytes))

/-- `'1'` ReadPage (R194): success is `0 < s <= page + spare`, from the startup geometry. -/
def execHostReadPage (s : State) : Result :=
  .next (s.exchange .hostReadPage 0x01000000#32
    (fun n => decide (0 < n ∧ n ≤ (s.control.sizes.payload : Int))) (some .page))

/-- `'2'` ResetPageCounter (R195): success is `s = 1`. -/
def execHostResetCounter (s : State) : Result :=
  .next (s.exchange .hostResetCounter 0x02000000#32 (fun n => decide (n = 1)) none)

/-- `'3'` SetPageCounter with its three argument bytes (R101, R196); the expected size is 1: DEDUCED
(notes/assumptions/18.md). -/
def execHostSetCounter (b0 b1 b2 : Byte) (s : State) : Result :=
  .next (s.exchange (.hostSetCounter b0 b1 b2) (setpcWord (hostPageNumber b0 b1 b2)) (fun n => decide (n = 1)) none)

/-- `'4'` GetDriveStrength (R197): one `RegRead(0x18)`, no exchange. -/
def execHostGetDrive (s : State) : Result :=
  match s.transact (.regRead 0x18) with
  | some (.word w, s') => .next ((s'.report (.driveStrength w)).setPos .idle)
  | _ => .next s

/-- `'5'` GetFlashInfo (R198): the line of the startup geometry, no exchange. DESIGN CHOICE (notes/assumptions/23.md): C's
copy, of the two sources R198 allows. -/
def execHostGetInfo (s : State) : Result :=
  .next ((s.report (.line (geometryLine s.control.sizes))).setPos .idle)

end Sys2Proof.Machine
end

