-- ==== Sys2Proof/Machine/Dispatch.lean ====
section
/-! DEFINITION. The dispatch of every instruction of the opcode table to its meaning. -/

namespace Sys2Proof.Machine

def exec (i : Instr) (s : State) : Host.Outcome State Fault Refusal :=
  match i with
  -- the seven Commands, format CMDQ32 (R162)
  | .readId => Sys2Proof.Machine.execReadId s
  | .readPage => Sys2Proof.Machine.execReadPage s
  | .rstpc => Sys2Proof.Machine.execRstpc s
  | .setpc n => Sys2Proof.Machine.execSetpc n s
  | .getdrv => Sys2Proof.Machine.execGetdrv s
  | .getinfo => Sys2Proof.Machine.execGetinfo s
  | .noOp => Sys2Proof.Machine.execNoOp s
  -- the four command cycles of the NAND bus, format NANDCMD8 (R98)
  | .nandReset => Sys2Proof.Machine.execNandReset s
  | .nandReadId => Sys2Proof.Machine.execNandReadId s
  | .nandReadSetup => Sys2Proof.Machine.execNandReadSetup s
  | .nandReadConfirm => Sys2Proof.Machine.execNandReadConfirm s
  -- the six host bytes, format SERIAL8 (R193 to R198)
  | .hostReadId => Sys2Proof.Machine.execHostReadId s
  | .hostReadPage => Sys2Proof.Machine.execHostReadPage s
  | .hostResetCounter => Sys2Proof.Machine.execHostResetCounter s
  | .hostSetCounter b0 b1 b2 => Sys2Proof.Machine.execHostSetCounter b0 b1 b2 s
  | .hostGetDrive => Sys2Proof.Machine.execHostGetDrive s
  | .hostGetInfo => Sys2Proof.Machine.execHostGetInfo s

end Sys2Proof.Machine
end

