-- ==== Sys2Proof/Machine/Turns.lean ====
section
/-! DEFINITION. One turn of each agent (R12): the worker engine W (R160, R218, R242) and the control side C (R190, R191,
R204, R244), with the inputs of the outside world, and where each fetches its next instruction. -/

namespace Sys2Proof.Machine

/-! ### Agent W -/

/-- The bus operation W is inside, as the instruction its opcode decodes to (R98). -/
def State.busInstr (s : State) : Option Instr :=
  (busOpcode s.seq).bind (fun b => decode (.nandcmd b))

/-- The instruction W's next micro-step belongs to: inside a bus operation the innermost one, and else the Command in
CUR_CMD (R162). -/
def State.workerInstr (s : State) : Instr :=
  match s.busInstr with
  | some i => i
  | none => decodeCommand s.curCmd

/-- One atomic step of W. In INIT it runs the startup sequence (R242); in RUN the loop of R160; in HALTED nothing
(R218). An agent that holds leaves the state as it is (R70, R71). -/
def workerTurn (s : State) : Result :=
  match s.phase with
  | .halted => .next s
  | .init =>
    match s.busInstr with
    | some i => exec i s
    | none => microStep s
  | .run =>
    match s.wstate with
    | .waitForCommand => .next s.takeCommand
    | .execute => exec s.workerInstr s
    | .publishResult => .next s.publish

/-! ### Agent C -/

/-- Whether C is inside an exchange or a held transaction, so that it begins no other one. -/
def State.controlBusy (s : State) : Bool :=
  s.control.held.isSome ||
    (match s.control.pos with
     | .serve _ _ => true
     | _ => false)

/-- C performs a transaction: it completes with a response, or holds and is tried again at C's next turn (R40, R70,
R71). -/
def State.perform (s : State) (t : Txn) : State :=
  match s.transact t with
  | some (_, s') => { s' with control := { s'.control with held := none } }
  | none => { s with control := { s.control with held := some t } }

/-- A transaction of an arbitrary control side (R204); C begins none while it is inside another. DESIGN CHOICE
(notes/assumptions/17.md). -/
def portTurn (t : Txn) (s : State) : State := if s.controlBusy then s else s.perform t

/-- The Serial Command Interface polls STATUS until READY or HALTED (R191, R244). -/
def State.bootPoll (s : State) : State :=
  match s.transact (.regRead 0x08) with
  | some (.word w, s') =>
    if w.getLsbD 0 then s'.setPos .bootPage
    else if w.getLsbD 1 then s'.setPos .stopped
    else s'
  | _ => s

/-- It reads PAGE_SIZE, SPARE_SIZE and TOTAL_SIZE in turn into its copy of the geometry (R191, R244). -/
def State.bootRead (s : State) (off : Nat) (upd : Geometry → Word → Geometry) (next : CtlPos) : State :=
  match s.transact (.regRead off) with
  | some (.word w, s') => ({ s' with control := { s'.control with sizes := upd s'.control.sizes w } }).setPos next
  | _ => s

/-- One atomic step of the Serial Command Interface (R191): finish a held transaction, start up, serve a host byte, or
read at most one byte. A byte outside `'0'` to `'5'`, or none, prints the help text (R199): DEDUCED
(notes/assumptions/14.md). `'3'` waits for its three argument bytes (R196): DESIGN CHOICE (notes/assumptions/16.md). -/
def controlTurn (s : State) : Result :=
  match s.control.held with
  | some t => .next (s.perform t)
  | none =>
    match s.control.pos with
    | .stopped => .next s
    | .bootPoll => .next s.bootPoll
    | .bootPage => .next (s.bootRead 0x0C (fun g w => { g with pageSize := w }) .bootSpare)
    | .bootSpare => .next (s.bootRead 0x10 (fun g w => { g with spareSize := w }) .bootTotal)
    | .bootTotal => .next (s.bootRead 0x14 (fun g w => { g with totalSize := w }) .idle)
    | .serve i _ => exec i s
    | .idle =>
      match fetchSerial s.control.serialIn with
      | .empty => .next (s.report .help)
      | .incomplete => .next s
      | .unknown rest => .next (({ s with control := { s.control with serialIn := rest } }).report .help)
      | .complete i rest => exec i { s with control := { s.control with serialIn := rest } }

/-- A byte arrives on the serial link. -/
def State.receive (s : State) (b : Byte) : State :=
  { s with control := { s.control with serialIn := s.control.serialIn ++ [b] } }

/-- The bounded wait for an argument byte of `'3'` ends: the partial command is discarded, the timeout reported, and no
transaction made (R105, R196, R211). It ends nothing where no argument byte is awaited. -/
def State.endArgWait (s : State) : State :=
  if s.control.pos = .idle ∧ s.control.held = none ∧ fetchSerial s.control.serialIn = .incomplete then
    ({ s with control := { s.control with serialIn := [] } }).report .argTimeout
  else s

/-! ### Inputs -/

/-- One input of the outside world. -/
def takeInput (i : Input) (s : State) : Result :=
  match i with
  | .worker => workerTurn s
  | .control => controlTurn s
  | .port t => .next (portTurn t s)
  | .hostByte b => .next (s.receive b)
  | .argTimeout => .next s.endArgWait
  | .hardReset => .next s.hardReset

/-- The next input and the inputs after it; with none listed W takes the turn. DESIGN CHOICE
(notes/assumptions/2.md). -/
def Env.nextInput (e : Env) : Input × Env :=
  match e.inputs with
  | [] => (.worker, e)
  | i :: is => (i, { e with inputs := is })

/-! ### Placing an instruction where an agent fetches it: DESIGN CHOICE (notes/assumptions/11.md) -/

/-- The NFC as a startup sequence that succeeded leaves its phase and geometry: RUN, with a recognised geometry. -/
def State.booted (s : State) : State :=
  { s with
    phase := .run, seq := [], geom := s.geom.or (some geometry4096),
    flags := { geomValid := true, errGeometry := false, errIoWidth := false, errNotReady := false } }

/-- The page read of READPAGE, entered at position `line` of `ReadPage` (R148, R166). -/
def State.placedInPage (s : State) (line : Nat) : State :=
  let n := (s.booted.geom.map Geometry.payload).getD 0
  { s.booted with
    wstate := .execute, curCmd := Command.ofWord 0x01000000#32,
    seq := settle [{ op := .readPage s.pageCounter n, line := line, loc := 0 },
                   { op := .cmdReadPage, line := 3, loc := n }] }

/-- Store a code where its agent fetches its next instruction, with that agent's turn next: a command word in CUR_CMD of
a worker about to execute it; a NAND opcode as the next line of the startup sequence or of READPAGE that drives it; host
bytes first on the serial link of an idle Serial Command Interface. -/
def State.place (s : State) (c : Code) : State :=
  match c with
  | .cmdq w =>
    { s.booted with
      wstate := .execute, curCmd := Command.ofWord w, env := { s.env with inputs := .worker :: s.env.inputs } }
  | .nandcmd b =>
    let e := { s.env with inputs := .worker :: s.env.inputs }
    if b = 0xFF#8 then { s with phase := .init, seq := settle [Op.startup.start], env := e }
    else if b = 0x90#8 then
      { s with phase := .init, seq := settle [{ op := .startup, line := 1, loc := 0 }], env := e }
    else if b = 0x00#8 then { s.placedInPage 1 with env := e }
    else if b = 0x30#8 then { s.placedInPage 3 with env := e }
    else s
  | .serial bs =>
    { s with
      control := { s.control with pos := .idle, held := none, serialIn := bs ++ s.control.serialIn },
      env := { s.env with inputs := .control :: s.env.inputs } }

end Sys2Proof.Machine
end

