-- ==== Sys2Proof/Safety.lean ====
section
/-! DEFINITION. The terms in which claims speak of a safe run: repeated steps, requests in flight (R75), quiescence (R254),
hangs (R220), and the invariants of the machine (R26, R28, R30, R32, R35, R36, R37, R53, R217). -/

namespace Sys2Proof.Machine

/-! ### Runs -/

/-- `n` repetitions of one atomic step function, up to the first fault or refusal. -/
def runFor (f : State → Result) : Nat → State → Result
  | 0, s => .next s
  | n + 1, s =>
    match f s with
    | .next s' => runFor f n s'
    | .fault r => .fault r
    | .refused r => .refused r

/-! ### What the spec says of a whole state -/

/-- The number of requests in flight (R75): words in CMDQ, the command W executes or publishes, words in RESQ. -/
def State.inFlight (s : State) : Nat :=
  s.cmdq.length + (if s.wstate = .waitForCommand then 0 else 1) + s.resq.length

/-- C is inside an `Xchg` (R190): its `RegWrite(0x00, w)` or its `RegRead(0x04)` is yet to complete. Reading the payload
comes after it. A transaction that holds counts as one of the two (R42, R43; notes/assumptions/17.md). -/
def State.insideXchg (s : State) : Bool :=
  s.control.held.isSome ||
    (match s.control.pos with
     | .serve _ .push => true
     | .serve _ .pop => true
     | _ => false)

/-- Quiescent (R254). -/
def State.quiescent (s : State) : Bool :=
  s.phase == .run && s.wstate == .waitForCommand && s.cmdq.isEmpty && s.resq.isEmpty && !s.insideXchg

/-- The result words that RESQ_POP has returned to C, oldest first (R43). -/
def resultWords : List (Txn × Response) → List Word
  | [] => []
  | (.regRead 0x04, .word w) :: rs => w :: resultWords rs
  | _ :: rs => resultWords rs

/-- What a finite test observes at a quiescent state (R254). -/
structure Observation where
  results   : List Word
  buf       : Memory
  registers : List (Option Word)
  trace     : List PinEvent
deriving DecidableEq, Repr

/-- The observable outcome of a run (R254): the result words C received, BUF, the registers that read without a side effect,
and the pin trace. -/
def State.observe (s : State) : Observation :=
  { results := resultWords s.control.responses, buf := s.buf,
    registers := [0x08, 0x0C, 0x10, 0x14, 0x18, 0x1C, 0x20].map s.register, trace := s.trace }

/-- W polls RY (R126 line 8): `seq` stands at the poll of a `ReadBytes`. -/
def State.polling (s : State) : Bool :=
  match s.seq with
  | f :: _ => f.micro? == some .poll
  | [] => false

/-- Every row of the table of R52 that gives a value. -/
def State.atReset (s : State) : Prop :=
  s.pins.cle = false ∧ s.pins.ale = false ∧ s.pins.cen = true ∧ s.pins.ren = true ∧ s.pins.wen = true ∧
    s.pins.wpn = s.params.wpLevel ∧ s.pins.ioDir = .input ∧ s.pins.ioOut = 0x00#8 ∧
    s.pinMap = s.params.pinMap ∧ s.driveStrength = s.params.driveStrength ∧ s.pageCounter = 0#32 ∧
    s.bootId = { b0 := 0x00#8, b1 := 0x00#8, b2 := 0x00#8, b3 := 0x00#8, b4 := 0x00#8 } ∧ s.bootIdValid = false ∧
    s.geom = none ∧
    s.flags = { geomValid := false, errGeometry := false, errIoWidth := false, errNotReady := false } ∧
    s.phase = .init ∧ s.wstate = .waitForCommand ∧ s.seq = settle [Op.startup.start] ∧ s.byteIdx = 0 ∧
    s.ryPolls = 0 ∧ s.cmdq = [] ∧ s.resq = [] ∧ (∀ a, s.buf.read a = 0x00#8) ∧ s.trace = [] ∧
    s.status = 0x00000100#32

/-- The levels of R53 between two bus primitives. -/
def Pins.idle (p : Pins) : Bool := !p.cle && !p.ale && p.wen && p.ren

/-! ### The pin traces of the spec -/

/-- One command cycle (R120, worked example; V1). -/
def commandTrace (b : Byte) : List PinEvent :=
  [.ioDir .output, .ioOut b, .pin .cle true, .pin .cen false, .wait .tCS, .pin .wen false, .wait .tWP,
   .pin .wen true, .wait .tCLH, .pin .cle false]

/-- One single address cycle (R122, worked example; V3). -/
def addressByteTrace (b : Byte) : List PinEvent :=
  [.ioDir .output, .ioOut b, .pin .ale true, .pin .cen false, .wait .tCS, .pin .wen false, .wait .tWP,
   .pin .wen true, .wait .tALH, .pin .ale false]

/-- Five address cycles under one ALE (R124; V4). -/
def rowColumnTrace (bs : List Byte) : List PinEvent :=
  [.ioDir .output, .pin .ale true, .pin .cen false, .wait .t5CS] ++
    bs.flatMap (fun b =>
      [.ioOut b, .wait .t5DS, .pin .wen false, .wait .t5WP, .pin .wen true, .wait .t5WH]) ++
    [.pin .ale false]

/-- The set-up events of `ReadBytes` (R126 lines 1 to 6; V5). -/
def readSetupTrace : List PinEvent :=
  [.ioDir .input, .pin .cle false, .pin .ale false, .pin .wen true, .pin .ren true, .pin .cen false]

/-- `k` polls that read 0, then one that reads 1 (R126 line 8; V6). -/
def readyTrace (k : Nat) : List PinEvent := List.replicate k (.ry false) ++ [.ry true]

/-- One data-out cycle per byte (R126 lines 10a to 10f; V5). -/
def dataTrace (bs : List Byte) : List PinEvent :=
  bs.flatMap (fun b => [.pin .ren false, .wait .tREA, .sample b, .pin .ren true, .wait .tREH])

/-- A `ReadBytes` that succeeds after `k` polls that read 0 (R126; V5, V6). -/
def readBytesTrace (k : Nat) (bs : List Byte) : List PinEvent := readSetupTrace ++ readyTrace k ++ dataTrace bs

/-- A `ReadBytes` that gives up after `n` polls (R126; V7). -/
def notReadyTrace (n : Nat) : List PinEvent := readSetupTrace ++ List.replicate n (.ry false)

/-- `Reset()` (R140; V10). -/
def resetTrace : List PinEvent := commandTrace 0xFF#8 ++ [.pin .cen true, .wait .tRST]

/-- The five address bytes of a page at column 0, by the arithmetic of R96. -/
def pageAddress (page : Word) : List Byte :=
  [0x00#8, 0x00#8, BitVec.ofNat 8 (page.toNat % 256), BitVec.ofNat 8 (page.toNat / 256 % 256),
   BitVec.ofNat 8 (page.toNat / 65536 % 2)]

/-- A page read up to its RY poll (R148 lines 1 to 5; V12). -/
def pageSetupTrace (page : Word) : List PinEvent :=
  resetTrace ++ commandTrace 0x00#8 ++ rowColumnTrace (pageAddress page) ++ commandTrace 0x30#8 ++ [.wait .tRSETTLE]

/-- An ID read up to its data cycles (R142 lines 1 and 2; V11). -/
def idSetupTrace : List PinEvent := commandTrace 0x90#8 ++ addressByteTrace 0x00#8

/-- The pins as `ReadBytes` leaves them (R126, exit state). -/
def Pins.afterRead (p : Pins) : Pins :=
  { p with cle := false, ale := false, cen := false, ren := true, wen := true, ioDir := .input }

/-- The constraints of R7, R128 and R252 on the timing parameters, in nanoseconds, and on `T_CLK_NS`. -/
def TimingOk (bound : TimeParam → ℝ) (clk : ℝ) : Prop :=
  20 ≤ bound .tCS ∧ 12 ≤ bound .tWP ∧ 12 ≤ bound .tCLH ∧ bound .tCLH ≤ bound .tALH ∧ bound .tCS < bound .t5CS ∧
    0 < bound .t5DS ∧ bound .tWP < bound .t5WP ∧ bound .tALH < bound .t5WH ∧ 0 < bound .tREA ∧ 0 ≤ bound .tREH ∧
    600000 ≤ bound .tRST ∧ 0 < bound .tRSETTLE ∧ 0 < clk

/-- RY reads 0 `k` times and the wait is not given up (R126 line 8, R127). -/
def patient (p : Params) (k : Nat) : Bool :=
  match p.ryTimeout with
  | none => true
  | some n => decide (k < n)

/-! ### The control side's commands -/

/-- The command word that a host byte sends (R193 to R196); `'4'` and `'5'` send none. -/
def hostCommandWord : Instr → Option Word
  | .hostReadId => some 0x00000000#32
  | .hostReadPage => some 0x01000000#32
  | .hostResetCounter => some 0x02000000#32
  | .hostSetCounter b0 b1 b2 =>
    some (BitVec.ofNat 32 (0x03000000 + b0.toNat + 256 * b1.toNat + 65536 * (b2.toNat % 2)))
  | _ => none

/-- The success test of a host byte on the returned size (R193 to R196). -/
def hostAccepts (s : State) (i : Instr) (size : Int) : Bool :=
  match i with
  | .hostReadId => decide (0 < size ∧ size ≤ 5)
  | .hostReadPage =>
    decide (0 < size ∧ size ≤ (s.control.sizes.pageSize.toNat + s.control.sizes.spareSize.toNat : Nat))
  | .hostResetCounter => decide (size = 1)
  | .hostSetCounter _ _ _ => decide (size = 1)
  | _ => false

/-- What a host byte that reads a payload reports of it (R193, R194). -/
def hostPayload (i : Instr) (bs : List Byte) : Option Report :=
  match i with
  | .hostReadId => some (.idBytes bs)
  | .hostReadPage => some (.page bs)
  | _ => none

/-! ### The control pins at every position of the sequencer -/

/-- CLE, ALE, WEn and REn when the next micro-step is the one `f` stands at (R120, R122, R124, R126; R53 between two
primitives). -/
def pinsAt (p : Pins) (f : Frame) : Bool :=
  match f.op with
  | .assertCommand _ =>
    p.cle == decide (3 ≤ f.line) && !p.ale && p.wen == !(f.line == 6 || f.line == 7) && p.ren
  | .assertSingleAddressByte _ =>
    !p.cle && p.ale == decide (3 ≤ f.line) && p.wen == !(f.line == 6 || f.line == 7) && p.ren
  | .assertRowColumnAddress _ _ =>
    !p.cle && p.ale == decide (2 ≤ f.line) && p.ren &&
      p.wen == !(decide (4 ≤ f.line) && ((f.line - 4) % 6 == 3 || (f.line - 4) % 6 == 4))
  | .readBytes _ _ =>
    !p.cle && !p.ale && p.wen && p.ren == !(f.line == 11 || f.line == 12 || f.line == 13)
  | _ => p.idle

/-- The control pins fit the sequencer's position. -/
def State.pinsOk (s : State) : Bool :=
  match s.seq with
  | [] => s.pins.idle
  | f :: _ => pinsAt s.pins f

/-! ### The sequencer's stack -/

/-- `upper` is the operation that the line before `lower`'s position called (R32). -/
def calledBy (upper lower : Frame) : Bool :=
  decide (lower.line ≠ 0) &&
    match lower.op.body[lower.line - 1]? with
    | some (.call o) => decide (upper.op = o)
    | some .beginRead =>
      match upper.op with
      | .readPage _ n => decide (n = lower.loc)
      | _ => false
    | _ => false

/-- Every frame was called by the one below it. -/
def linked : List Frame → Bool
  | f :: g :: fs => calledBy f g && linked (g :: fs)
  | _ => true

/-- The innermost frame stands at a line that is no call. -/
def atMicro : List Frame → Bool
  | [] => true
  | f :: _ =>
    match f.micro? with
    | none => false
    | some (.call _) => false
    | some _ => true

/-- `phase`, `wstate`, `CUR_CMD` and `seq` fit together: the startup sequence runs in INIT alone, a command's operation
in Execute alone, and nothing else is ever in progress (R30, R31, R32, R160, R218). -/
def State.sequencerOk (s : State) : Bool :=
  linked s.seq && atMicro s.seq &&
    match s.phase, s.wstate with
    | .init, .waitForCommand => decide (outermostOp s.seq = some .startup)
    | .run, .execute =>
      s.seq.isEmpty ||
        (decide (outermostOp s.seq = some .cmdReadId) && decide (decodeCommand s.curCmd = .readId)) ||
        (decide (outermostOp s.seq = some .cmdReadPage) && decide (decodeCommand s.curCmd = .readPage))
    | .run, _ => s.seq.isEmpty
    | .halted, .waitForCommand => s.seq.isEmpty
    | _, _ => false

/-- The Serial Command Interface serves nothing but host bytes (R100). -/
def State.controlOk (s : State) : Bool :=
  match s.control.pos with
  | .serve i _ => (encode i).format == .serial8
  | _ => true

/-! ### Data invariants -/

/-- BUF holds its canonical form and nothing beyond BUF_SIZE (R38). -/
def State.bufOk (s : State) : Bool := s.buf.wf && s.buf.within s.params.bufSize

/-- Neither queue holds more than its depth (R36, R37). -/
def State.queuesOk (s : State) : Bool :=
  decide (s.cmdq.length ≤ s.params.cmdqDepth) && decide (s.resq.length ≤ s.params.resqDepth)

/-- The configuration is what the parameters say, and WPn stays at WP_LEVEL (R21, R24, R25). -/
def State.configOk (s : State) : Bool :=
  decide (s.pinMap = s.params.pinMap) && decide (s.driveStrength = s.params.driveStrength) &&
    s.pins.wpn == s.params.wpLevel

/-- `GEOM_VALID` is 1 exactly when `GEOM != none`, and GEOM has one of its three values (R28, R35). -/
def State.geomOk (s : State) : Bool :=
  s.flags.geomValid == s.geom.isSome &&
    decide (s.geom = none ∨ s.geom = some geometry2048 ∨ s.geom = some geometry4096)

/-- `0 <= PageCounter <= 2^17` (R26), and below 2^17 once READPAGE has passed its first line. -/
def State.counterOk (s : State) : Bool :=
  decide (s.pageCounter.toNat ≤ pageLimit) &&
    s.seq.all (fun f => f.op != .cmdReadPage || f.line == 0 || decide (s.pageCounter.toNat < pageLimit))

/-- How many bytes a destination holds (R27, R38). -/
def destSize (p : Params) : Dest → Nat
  | .buf => p.bufSize
  | .bootId => 5

/-- No pending store lies beyond its destination (R126, decision D32). -/
def State.storesOk (s : State) : Bool :=
  s.seq.all (fun f =>
    match f.op with
    | .readBytes count d =>
      decide (count ≤ destSize s.params d) &&
        (!(decide (10 ≤ f.line) && decide (f.line ≤ 15)) || decide (s.byteIdx < count))
    | .readPage _ n => decide (n ≤ s.params.bufSize)
    | .cmdReadPage => f.line != 1 || decide (f.loc < s.params.bufSize)
    | _ => true)

/-- `not_ready` is returned, and `ERR_NOTREADY` set, only when `RY_TIMEOUT = some n` (R35, R129). -/
def State.timeoutOk (s : State) : Bool :=
  (decide (s.ret = .ok) || s.params.ryTimeout.isSome) && (!s.flags.errNotReady || s.params.ryTimeout.isSome)

/-- No ID has been read and nothing decoded: `BOOT_ID_VALID`, `GEOM` and the flags but perhaps `ERR_NOTREADY`. -/
def State.unidentified (s : State) (notReady : Level) : Bool :=
  !s.bootIdValid && decide (s.geom = none) &&
    decide (s.flags = { geomValid := false, errGeometry := false, errIoWidth := false, errNotReady := notReady })

/-- `GEOM` and the flags are what `DecodeGeometry` and, once `width` has been looked at, `CheckIoWidth` say of `BOOT_ID`
(R215, R217). -/
def State.identified (s : State) (width : Bool) : Bool :=
  s.bootIdValid && decide (s.geom = decodeGeometry s.bootId) &&
    decide (s.flags =
      { geomValid := s.geom.isSome, errGeometry := s.geom.isNone,
        errIoWidth := width && !checkIoWidth s.bootId, errNotReady := false })

/-- `phase`, `BOOT_ID`, `GEOM` and the flags fit together at every line of the startup sequence and after it (R35, R215,
R216, R217, R242). -/
def State.phaseOk (s : State) : Bool :=
  match s.phase with
  | .init =>
    match s.seq.getLast? with
    | some f =>
      match f.line with
      | 4 =>
        s.bootIdValid && decide (s.geom = none) &&
          decide (s.flags =
            { geomValid := false, errGeometry := false, errIoWidth := false, errNotReady := false })
      | 5 => s.identified false
      | 6 => s.identified true || s.unidentified true
      | _ => s.unidentified false
    | none => false
  | .run => s.identified true && !s.flags.anyError
  | .halted => (s.identified true || s.unidentified true) && s.flags.anyError

/-- Everything the machine keeps from reset on. -/
def State.inv (s : State) : Bool :=
  s.sequencerOk && s.controlOk && s.bufOk && s.queuesOk && s.configOk && s.geomOk && s.counterOk && s.storesOk &&
    s.timeoutOk && s.phaseOk && s.pinsOk

end Sys2Proof.Machine
end

