-- ==== Sys2Proof/Certificates/Slice0/Obligations.lean ====
section
/-! DEFINITION. The statements about this model, for the provers. Each docstring cites the rules it formalises. -/

open Sys2Proof Sys2Proof.Machine

/-! ### Encodings -/

/-- Every well-formed instruction of every format is what its encoding decodes to (R90 to R92, R98, R100, R101, R106). -/
def Obligations.DecodeAfterEncode : Prop :=
  ∀ i : Instr, i.wellFormed = true → decode (encode i) = some i

/-- Whatever a code decodes to is well formed: the argument of SETPC is below 2^24 (R92). -/
def Obligations.DecodedInstructionsAreWellFormed : Prop :=
  ∀ (c : Code) (i : Instr), decode c = some i → i.wellFormed = true

/-- Decoding a command word is total and looks at `tag`, bits 26:24, and for tag 3 at `arg`, bits 23:0 (R90, R91, R92). -/
def Obligations.CommandWordDecodesByTag : Prop :=
  ∀ w : Word, decode (.cmdq w) =
    some (match w.toNat / 2 ^ 24 % 8 with
      | 0 => .readId
      | 1 => .readPage
      | 2 => .rstpc
      | 3 => .setpc (BitVec.ofNat 32 (w.toNat % 2 ^ 24))
      | 4 => .getdrv
      | 5 => .getinfo
      | _ => .noOp)

/-- The four NAND opcodes are the whole set (R98). -/
def Obligations.NandOpcodesAreTheWholeSet : Prop :=
  ∀ (b : Byte) (i : Instr), decode (.nandcmd b) = some i ↔
    (b = 0xFF#8 ∧ i = .nandReset) ∨ (b = 0x90#8 ∧ i = .nandReadId) ∨
      (b = 0x00#8 ∧ i = .nandReadSetup) ∨ (b = 0x30#8 ∧ i = .nandReadConfirm)

/-- A host byte tells its own length: `'3'` takes exactly three more bytes, every other byte of `'0'` to `'5'` none, and
no other byte is a command (R100, R105). -/
def Obligations.HostBytesTellTheirLength : Prop :=
  (∀ (i : Instr) (rest : List Byte),
    (∀ bs, encode i = .serial bs → fetchSerial (bs ++ rest) = .complete i rest)) ∧
  (∀ rest : List Byte, rest.length < 3 → fetchSerial (0x33#8 :: rest) = .incomplete) ∧
  (∀ (b : Byte) (rest : List Byte), ¬ (0x30 ≤ b.toNat ∧ b.toNat ≤ 0x35) → fetchSerial (b :: rest) = .unknown rest)

/-- A few words written out from the spec's encodings decode to the instructions they stand for, whatever their reserved
bits and their unused arguments (R90, R92, R98, R100, R106). -/
def Obligations.SpecWordsDecode : Prop :=
  decode (.cmdq 0x00000000#32) = some .readId ∧ decode (.cmdq 0xF9000000#32) = some .readPage ∧
    decode (.cmdq 0x02123456#32) = some .rstpc ∧ decode (.cmdq 0x03011234#32) = some (.setpc 0x11234#32) ∧
    decode (.cmdq 0x07ABCDEF#32) = some .noOp ∧ decode (.nandcmd 0x90#8) = some .nandReadId ∧
    decode (.serial [0x33#8, 0x34#8, 0x12#8, 0x01#8]) = some (.hostSetCounter 0x34#8 0x12#8 0x01#8)

/-- The page number of host byte `'3'` is `b0 + 256*b1 + 65536*(b2 mod 2)`, below 2^17, and the word enqueued decodes to
SETPC of it (R101). -/
def Obligations.HostPageNumberArithmetic : Prop :=
  ∀ b0 b1 b2 : Byte,
    (hostPageNumber b0 b1 b2).toNat = b0.toNat + 256 * b1.toNat + 65536 * (b2.toNat % 2) ∧
    (hostPageNumber b0 b1 b2).toNat < 2 ^ 17 ∧
    (setpcWord (hostPageNumber b0 b1 b2)).toNat = 0x03000000 + (hostPageNumber b0 b1 b2).toNat ∧
    decode (.cmdq (setpcWord (hostPageNumber b0 b1 b2))) = some (.setpc (hostPageNumber b0 b1 b2))

/-- NANDADDR5: column-low, column-high (5 bits), row-low, row-mid, row-high (1 bit) (R96, R102). -/
def Obligations.AddressBytesAreTheFiveFields : Prop :=
  ∀ page column : Word, (addressBytes page column).map BitVec.toNat =
    [column.toNat % 256, column.toNat / 256 % 32, page.toNat % 256, page.toNat / 256 % 256, page.toNat / 65536 % 2]

/-! ### The pure decoders -/

/-- `DecodeGeometry` recognises one maker and two page-size codes, with the exact sizes, and has no default (R144, R146,
R153). -/
def Obligations.DecodeGeometryIsExact : Prop :=
  ∀ id : IdBytes,
    (id.b0 = 0x98#8 → id.b3.toNat % 4 = 1 →
      decodeGeometry id = some { pageSize := 2048#32, spareSize := 128#32, totalSize := 285212672#32 }) ∧
    (id.b0 = 0x98#8 → id.b3.toNat % 4 = 2 →
      decodeGeometry id = some { pageSize := 4096#32, spareSize := 256#32, totalSize := 570425344#32 }) ∧
    (id.b0 ≠ 0x98#8 ∨ id.b3.toNat % 4 = 0 ∨ id.b3.toNat % 4 = 3 → decodeGeometry id = none)

/-- `CheckIoWidth` is bit 6 of the fourth byte being 0, whatever the maker (R147). -/
def Obligations.CheckIoWidthIsBitSix : Prop :=
  ∀ id : IdBytes, checkIoWidth id = true ↔ id.b3.toNat / 64 % 2 = 0

/-- Every choice of the OPEN parameters meets the spec's constraints; every real clock period and real timing parameters that
meet them are a choice; and a wait of at least T lasts T / T_CLK_NS bus cycles, rounded up (R7, R8, R128, R252). That
the values R252 marks "~" are exact bounds is the model's choice (notes/assumptions/10.md). -/
def Obligations.ParametersMeetTheirConstraints : Prop :=
  (∀ p : Params, 1 ≤ p.cmdqDepth ∧ 1 ≤ p.resqDepth ∧ 4352 ≤ p.bufSize ∧ ∀ n, p.ryTimeout = some n → 1 ≤ n) ∧
  (∀ t : Timing, TimingOk t.bound t.clk) ∧
  (∀ (bound : TimeParam → ℝ) (clk : ℝ), TimingOk bound clk → ∃ t : Timing, t.bound = bound ∧ t.clk = clk) ∧
  ∀ (t : Timing) (p : TimeParam),
    t.bound p ≤ t.minCycles p * t.clk ∧ t.minCycles p * t.clk < t.bound p + t.clk

/-! ### The one-step commands -/

/-- RSTPC, every word of tag 2, sets PageCounter to 0 with result 1 and changes nothing else (R167). That
the result and PublishResult come in one step is the model's choice (notes/assumptions/24.md), here and below. -/
def Obligations.RstpcResult : Prop :=
  (∀ w : Word, w.toNat / 2 ^ 24 % 8 = 2 → decode (.cmdq w) = some .rstpc) ∧
  ∀ s : State, exec .rstpc s = .next { s with pageCounter := 0#32, curRes := 1#32, wstate := .publishResult }

/-- SETPC n, every word of tag 3 with n its bits 23:0: below 2^17 the counter takes n with result 1; otherwise the counter
stays, with result 0; nothing else changes (R168). That the step ends in PublishResult is notes/assumptions/24.md's. -/
def Obligations.SetpcResult : Prop :=
  (∀ w : Word, w.toNat / 2 ^ 24 % 8 = 3 →
    decode (.cmdq w) = some (.setpc (BitVec.ofNat 32 (w.toNat % 2 ^ 24)))) ∧
  ∀ (s : State) (n : Word),
    (n.toNat < 2 ^ 17 →
      exec (.setpc n) s = .next { s with pageCounter := n, curRes := 1#32, wstate := .publishResult }) ∧
    (2 ^ 17 ≤ n.toNat → exec (.setpc n) s = .next { s with curRes := 0#32, wstate := .publishResult })

/-- GETDRV, GETINFO and NONE, every word of tags 4, 5, and 6 or 7, give result 0 and change nothing else (R169, R170,
R171). That the step ends in PublishResult is notes/assumptions/24.md's. -/
def Obligations.NoOpResult : Prop :=
  (∀ w : Word,
    (w.toNat / 2 ^ 24 % 8 = 4 → decode (.cmdq w) = some .getdrv) ∧
    (w.toNat / 2 ^ 24 % 8 = 5 → decode (.cmdq w) = some .getinfo) ∧
    (w.toNat / 2 ^ 25 % 4 = 3 → decode (.cmdq w) = some .noOp)) ∧
  ∀ (s : State) (i : Instr), i = .getdrv ∨ i = .getinfo ∨ i = .noOp →
    exec i s = .next { s with curRes := 0#32, wstate := .publishResult }

/-- READPAGE at `PageCounter >= 2^17`: result 0, no clear, no pin event, the counter unchanged (R166 failure (a),
R213). That the step ends in PublishResult is notes/assumptions/24.md's. -/
def Obligations.ReadPageRejectsPastTheEnd : Prop :=
  ∀ s : State, s.seq = [] → 2 ^ 17 ≤ s.pageCounter.toNat →
    exec .readPage s = .next { s with curRes := 0#32, wstate := .publishResult }

/-! ### The bus primitives -/

/-- `AssertCommand(b)`, called from anywhere: ten micro-steps, its ten events, its exit state, and nothing else (R120). -/
def Obligations.AssertCommandRuns : Prop :=
  ∀ (s : State) (b : Byte) (fs : List Frame), s.seq = (Op.assertCommand b).start :: fs →
    runFor microStep 10 s = .next
      { s with
        seq := settle ({ op := .assertCommand b, line := 10, loc := 0 } :: fs)
        pins := { s.pins with ioDir := .output, ioOut := b, cle := false, cen := false, wen := true }
        trace := s.trace ++ commandTrace b }

/-- `AssertSingleAddressByte(b)`, called from anywhere (R122). -/
def Obligations.AssertSingleAddressByteRuns : Prop :=
  ∀ (s : State) (b : Byte) (fs : List Frame), s.seq = (Op.assertSingleAddressByte b).start :: fs →
    runFor microStep 10 s = .next
      { s with
        seq := settle ({ op := .assertSingleAddressByte b, line := 10, loc := 0 } :: fs)
        pins := { s.pins with ioDir := .output, ioOut := b, ale := false, cen := false, wen := true }
        trace := s.trace ++ addressByteTrace b }

/-- `AssertRowColumnAddress(page, column)`, called from anywhere: the five bytes of R96 under one ALE, with the fifth
byte left on `IO_OUT` (R124). That the loop header of line 5 is no step, so that there are 35, is the model's choice
(notes/assumptions/9.md). -/
def Obligations.AssertRowColumnAddressRuns : Prop :=
  ∀ (s : State) (page column : Word) (fs : List Frame),
    s.seq = (Op.assertRowColumnAddress page column).start :: fs →
    runFor microStep 35 s = .next
      { s with
        seq := settle ({ op := .assertRowColumnAddress page column, line := 35, loc := 0 } :: fs)
        pins := { s.pins with
          ioDir := .output, ioOut := BitVec.ofNat 8 (page.toNat / 65536 % 2), ale := false, cen := false, wen := true }
        trace := s.trace ++ rowColumnTrace
          [BitVec.ofNat 8 (column.toNat % 256), BitVec.ofNat 8 (column.toNat / 256 % 32),
           BitVec.ofNat 8 (page.toNat % 256), BitVec.ofNat 8 (page.toNat / 256 % 256),
           BitVec.ofNat 8 (page.toNat / 65536 % 2)] }

/-- `ReadBytes(count, BUF)`, called from anywhere, with RY reading 0 `k` times and then 1: `count` data-out cycles, the
bytes stored in order from index 0, nothing else of BUF touched, `ok` returned (R126, R68). That lines 10 and 11 are steps
of their own is the model's choice (notes/assumptions/9.md). -/
def Obligations.ReadBytesFillsTheBuffer : Prop :=
  ∀ (s : State) (k : Nat) (bs zs : List Byte) (ys : List Level) (fs : List Frame),
    s.seq = (Op.readBytes bs.length .buf).start :: fs → bs.length ≤ s.params.bufSize → s.buf.wf = true →
    patient s.params k = true → s.env.ryIn = List.replicate k false ++ true :: ys → s.env.sampleIn = bs ++ zs →
    ∃ m : Memory,
      runFor microStep (11 + k + 7 * bs.length) s = .next
        { s with
          seq := settle ({ op := .readBytes bs.length .buf, line := 17, loc := 0 } :: fs)
          ret := .ok, byteIdx := bs.length, ryPolls := k, buf := m
          pins := s.pins.afterRead
          trace := s.trace ++ readBytesTrace k bs
          env := { s.env with ryIn := ys, sampleIn := zs } } ∧
      m.wf = true ∧ ∀ a, m.read a = (bs[a]?).getD (s.buf.read a)

/-- `ReadBytes` with `RY_TIMEOUT = some n` and RY reading 0 n times: `not_ready`, no data-out cycle, no byte written
(R126, R127). That the count and the return belong to the poll's step is the model's choice (notes/assumptions/9.md). -/
def Obligations.ReadBytesGivesUp : Prop :=
  ∀ (s : State) (count n : Nat) (d : Dest) (ys : List Level) (fs : List Frame),
    s.seq = (Op.readBytes count d).start :: fs → s.params.ryTimeout = some n →
    s.env.ryIn = List.replicate n false ++ ys →
    runFor microStep (7 + n) s = .next
      { s with
        seq := settle fs, ret := .notReady, ryPolls := n
        pins := s.pins.afterRead
        trace := s.trace ++ notReadyTrace n
        env := { s.env with ryIn := ys } }

/-- With `RY_TIMEOUT = none`, while RY stays 0 the only micro-step is another poll: after any number of them W stands
where it stood, and only the poll count and the trace have grown (R127, R220). -/
def Obligations.PollingWithoutTimeoutHangs : Prop :=
  ∀ (s : State) (k : Nat) (ys : List Level),
    s.polling = true → s.params.ryTimeout = none → s.env.ryIn = List.replicate k false ++ ys →
    runFor microStep k s = .next
      { s with
        ryPolls := s.ryPolls + k
        trace := s.trace ++ List.replicate k (.ry false)
        env := { s.env with ryIn := ys } }

/-! ### The command cycles of the NAND bus -/

/-- NAND_RESET from an idle sequencer: the command cycle 0xFF, CEn de-asserted, `Wait(T_RST)`; the chip is left in
standby and nothing else changes (R140). That the opcode started on its own is `Reset()` is the model's choice
(notes/assumptions/12.md); the number of steps, here and in the next three, is that of notes/assumptions/9.md. -/
def Obligations.NandResetRuns : Prop :=
  ∀ s : State, s.seq = [] →
    runFor (exec .nandReset) 12 s = .next
      { s with
        pins := { s.pins with ioDir := .output, ioOut := 0xFF#8, cle := false, cen := true, wen := true }
        trace := s.trace ++ resetTrace }

/-- NAND_READID from an idle sequencer outside the startup sequence: command 0x90, address 0x00, five data-out cycles
into `BUF[0..4]` (R142). That a NAND_READID started on its own reads into BUF is the model's choice
(notes/assumptions/12.md); inside the startup sequence it reads into BOOT_ID (StartupIdentifiesTheChip). -/
def Obligations.NandReadIdRuns : Prop :=
  ∀ (s : State) (k : Nat) (b0 b1 b2 b3 b4 : Byte) (ys : List Level) (zs : List Byte),
    s.seq = [] → s.phase ≠ .init → s.buf.wf = true → patient s.params k = true →
    s.env.ryIn = List.replicate k false ++ true :: ys → s.env.sampleIn = b0 :: b1 :: b2 :: b3 :: b4 :: zs →
    ∃ m : Memory,
      runFor (exec .nandReadId) (66 + k) s = .next
        { s with
          ret := .ok, byteIdx := 5, ryPolls := k, buf := m
          pins := { s.pins.afterRead with ioOut := 0x00#8 }
          trace := s.trace ++ idSetupTrace ++ readBytesTrace k [b0, b1, b2, b3, b4]
          env := { s.env with ryIn := ys, sampleIn := zs } } ∧
      m.wf = true ∧ ∀ a, m.read a = ([b0, b1, b2, b3, b4][a]?).getD (s.buf.read a)

/-- NAND_READ_SETUP from an idle sequencer with a geometry: command 0x00 and the five address bytes of PageCounter at
column 0; the sequencer then stands at the read confirm (R148 lines 2 and 3). That a NAND_READ_SETUP started on its own
takes PageCounter and GEOM as its operands is the model's choice (notes/assumptions/12.md). -/
def Obligations.NandReadSetupRuns : Prop :=
  ∀ (s : State) (g : Geometry), s.seq = [] → s.geom = some g →
    runFor (exec .nandReadSetup) 45 s = .next
      { s with
        seq := settle [{ op := .readPage s.pageCounter (g.pageSize.toNat + g.spareSize.toNat), line := 3, loc := 0 }]
        pins := { s.pins with
          ioDir := .output, ioOut := BitVec.ofNat 8 (s.pageCounter.toNat / 65536 % 2),
          cle := false, ale := false, cen := false, wen := true }
        trace := s.trace ++ commandTrace 0x00#8 ++ rowColumnTrace (pageAddress s.pageCounter) }

/-- NAND_READ_CONFIRM from an idle sequencer with a geometry: command 0x30, `Wait(T_RSETTLE)`, the RY poll, and the
payload's data-out cycles into BUF from index 0 (R148 lines 4 to 6). That a NAND_READ_CONFIRM started on its own reads
GEOM's payload size is the model's choice (notes/assumptions/12.md). -/
def Obligations.NandReadConfirmRuns : Prop :=
  ∀ (s : State) (g : Geometry) (k : Nat) (bs zs : List Byte) (ys : List Level),
    s.seq = [] → s.geom = some g → g = geometry2048 ∨ g = geometry4096 →
    bs.length = g.pageSize.toNat + g.spareSize.toNat → s.buf.wf = true → patient s.params k = true →
    s.env.ryIn = List.replicate k false ++ true :: ys → s.env.sampleIn = bs ++ zs →
    ∃ m : Memory,
      runFor (exec .nandReadConfirm) (22 + k + 7 * bs.length) s = .next
        { s with
          ret := .ok, byteIdx := bs.length, ryPolls := k, buf := m
          pins := { s.pins.afterRead with ioOut := 0x30#8 }
          trace := s.trace ++ commandTrace 0x30#8 ++ [.wait .tRSETTLE] ++ readBytesTrace k bs
          env := { s.env with ryIn := ys, sampleIn := zs } } ∧
      m.wf = true ∧ ∀ a, m.read a = (bs[a]?).getD (s.buf.read a)

/-- A page read needs a geometry: without one NAND_READ_SETUP and NAND_READ_CONFIRM stop before any pin event, and
READPAGE stops at its line 3, each with a fault of its own name (R28, R166). That it is a fault is the model's choice
(notes/assumptions/5.md); no run reaches it. -/
def Obligations.PageReadWithoutGeometryFaults : Prop :=
  ∀ s : State, s.geom = none →
    (s.seq = [] → exec .nandReadSetup s = .fault .geometryAbsent ∧ exec .nandReadConfirm s = .fault .geometryAbsent) ∧
    (∀ loc, s.seq = [{ op := .cmdReadPage, line := 2, loc := loc }] → exec .readPage s = .fault .geometryAbsent)

/-! ### READID and READPAGE from start to end -/

/-- READID, with RY reading 1 after `k` polls: result 5, the five bytes in `BUF[0..4]`, the rest of BUF and everything
else as it was, the trace of V11 (R165, R142). The number of steps is that of notes/assumptions/9.md
and 24.md. -/
def Obligations.ReadIdRunsToItsResult : Prop :=
  ∀ (s : State) (k : Nat) (b0 b1 b2 b3 b4 : Byte) (ys : List Level) (zs : List Byte),
    s.seq = [] → s.buf.wf = true → patient s.params k = true →
    s.env.ryIn = List.replicate k false ++ true :: ys → s.env.sampleIn = b0 :: b1 :: b2 :: b3 :: b4 :: zs →
    ∃ m : Memory,
      runFor (exec .readId) (67 + k) s = .next
        { s with
          curRes := 5#32, wstate := .publishResult, ret := .ok, byteIdx := 5, ryPolls := k, buf := m
          pins := { s.pins.afterRead with ioOut := 0x00#8 }
          trace := s.trace ++ idSetupTrace ++ readBytesTrace k [b0, b1, b2, b3, b4]
          env := { s.env with ryIn := ys, sampleIn := zs } } ∧
      m.wf = true ∧ ∀ a, m.read a = ([b0, b1, b2, b3, b4][a]?).getD (s.buf.read a)

/-- READID with `RY_TIMEOUT = some n` and RY reading 0 n times: result 0 and BUF unchanged (R165, R213; V68).
The number of steps is that of notes/assumptions/9.md and 24.md. -/
def Obligations.ReadIdFailsWhenNotReady : Prop :=
  ∀ (s : State) (n : Nat) (ys : List Level),
    s.seq = [] → s.params.ryTimeout = some n → s.env.ryIn = List.replicate n false ++ ys →
    runFor (exec .readId) (28 + n) s = .next
      { s with
        curRes := 0#32, wstate := .publishResult, ret := .notReady, ryPolls := n
        pins := { s.pins.afterRead with ioOut := 0x00#8 }
        trace := s.trace ++ idSetupTrace ++ notReadyTrace n
        env := { s.env with ryIn := ys } }

/-- READPAGE below 2^17, with RY reading 1 after `k` polls: the whole of BUF cleared and `BUF[0..n-1]` filled with the
bytes the chip presented, PageCounter advanced by one, result n = page_size + spare_size, the trace of V12, and
everything else as it was (R166, R148, R172). The number of steps is that of notes/assumptions/9.md
and 24.md. -/
def Obligations.ReadPageRunsToItsResult : Prop :=
  ∀ (s : State) (g : Geometry) (k : Nat) (bs zs : List Byte) (ys : List Level),
    s.seq = [] → s.pageCounter.toNat < 2 ^ 17 → s.geom = some g → g = geometry2048 ∨ g = geometry4096 →
    bs.length = g.pageSize.toNat + g.spareSize.toNat → s.bufOk = true → patient s.params k = true →
    s.env.ryIn = List.replicate k false ++ true :: ys → s.env.sampleIn = bs ++ zs →
    ∃ m : Memory,
      runFor (exec .readPage) (82 + s.params.bufSize + k + 7 * bs.length) s = .next
        { s with
          pageCounter := s.pageCounter + 1#32
          curRes := BitVec.ofNat 32 (g.pageSize.toNat + g.spareSize.toNat)
          wstate := .publishResult, ret := .ok, byteIdx := bs.length, ryPolls := k, buf := m
          pins := { s.pins.afterRead with ioOut := 0x30#8 }
          trace := s.trace ++ pageSetupTrace s.pageCounter ++ readBytesTrace k bs
          env := { s.env with ryIn := ys, sampleIn := zs } } ∧
      m.wf = true ∧ ∀ a, m.read a = (bs[a]?).getD 0x00#8

/-- READPAGE with `RY_TIMEOUT = some n` and RY reading 0 n times: result 0, BUF all 0x00, PageCounter unchanged, the
chip reset and addressed (R166 failure (b), R213; V67). The number of steps is that of notes/assumptions/9.md and
24.md. -/
def Obligations.ReadPageFailsWhenNotReady : Prop :=
  ∀ (s : State) (g : Geometry) (n : Nat) (ys : List Level),
    s.seq = [] → s.pageCounter.toNat < 2 ^ 17 → s.geom = some g → s.bufOk = true →
    s.params.ryTimeout = some n → s.env.ryIn = List.replicate n false ++ ys →
    ∃ m : Memory,
      runFor (exec .readPage) (78 + s.params.bufSize + n) s = .next
        { s with
          curRes := 0#32, wstate := .publishResult, ret := .notReady, ryPolls := n, buf := m
          pins := { s.pins.afterRead with ioOut := 0x30#8 }
          trace := s.trace ++ pageSetupTrace s.pageCounter ++ notReadyTrace n
          env := { s.env with ryIn := ys } } ∧
      ∀ a, m.read a = 0x00#8

/-- Two page reads of the same page under the same geometry and the same answers of the chip leave the same bytes in
every index of BUF and the same pin events, whatever BUF, the pins and the rest held before (R256). -/
def Obligations.ReadPageIsDeterminedByTheChip : Prop :=
  ∀ (s s' : State) (g : Geometry) (k : Nat) (bs zs : List Byte) (ys : List Level),
    s.seq = [] → s'.seq = [] → s.pageCounter.toNat < 2 ^ 17 → s'.pageCounter = s.pageCounter →
    s'.params = s.params → s.geom = some g → s'.geom = some g → g = geometry2048 ∨ g = geometry4096 →
    bs.length = g.pageSize.toNat + g.spareSize.toNat → s.bufOk = true → s'.bufOk = true → patient s.params k = true →
    s.env.ryIn = List.replicate k false ++ true :: ys → s.env.sampleIn = bs ++ zs →
    s'.env.ryIn = s.env.ryIn → s'.env.sampleIn = s.env.sampleIn →
    ∃ (n : Nat) (t t' : State) (events : List PinEvent),
      runFor (exec .readPage) n s = .next t ∧ runFor (exec .readPage) n s' = .next t' ∧
      t.wstate = .publishResult ∧ t'.wstate = .publishResult ∧ t'.buf = t.buf ∧ t'.curRes = t.curRes ∧
      t'.pageCounter = t.pageCounter ∧ t.trace = s.trace ++ events ∧ t'.trace = s'.trace ++ events

/-- What one micro-step of READID or READPAGE leaves unchanged, wherever the command stands: the configuration, WPn,
BOOT_ID, GEOM, the flags, `phase`, CUR_CMD, both queues, the control side and the schedule; PageCounter in READID; and
every byte of BUF but the one the micro-step stores to (R174). -/
def Obligations.CommandMicroStepFrame : Prop :=
  ∀ (s t : State) (i : Instr) (o : Op),
    (i = .readId ∧ o = .cmdReadId) ∨ (i = .readPage ∧ o = .cmdReadPage) →
    s.sequencerOk = true → s.phase = .run → s.wstate = .execute → decodeCommand s.curCmd = i →
    exec i s = .next t →
    t.params = s.params ∧ t.pinMap = s.pinMap ∧ t.driveStrength = s.driveStrength ∧ t.pins.wpn = s.pins.wpn ∧
      t.bootId = s.bootId ∧ t.bootIdValid = s.bootIdValid ∧ t.geom = s.geom ∧ t.flags = s.flags ∧
      t.phase = s.phase ∧ t.curCmd = s.curCmd ∧ t.cmdq = s.cmdq ∧ t.resq = s.resq ∧ t.control = s.control ∧
      t.env.inputs = s.env.inputs ∧
      (t.pageCounter = s.pageCounter ∨ (i = .readPage ∧ t.pageCounter = s.pageCounter + 1#32)) ∧
      ∀ a, (s.commandEntry o).storeIndex ≠ some a → t.buf.read a = s.buf.read a

/-! ### The worker loop and the queues -/

/-- WaitForCommand: with a word in CMDQ the oldest is dequeued into CUR_CMD and Execute is next; with none nothing
changes (R160, R161, R71). That the lines of R160 up to Execute are one step is the model's choice
(notes/assumptions/24.md). -/
def Obligations.WaitForCommandDequeues : Prop :=
  ∀ s : State, s.phase = .run → s.wstate = .waitForCommand →
    (∀ w q, s.cmdq = w :: q →
      workerTurn s = .next { s with cmdq := q, curCmd := Command.ofWord w, wstate := .execute }) ∧
    (s.cmdq = [] → workerTurn s = .next s)

/-- PublishResult: with room in RESQ the result is its last element and WaitForCommand is next, with nothing changed but
the dead CUR_CMD and CUR_RES and the count of free values; with RESQ full nothing changes (R160, R163, R70, R29). That
the dead registers take free values is the model's choice (notes/assumptions/1.md), and so is that the enqueue and the return
to WaitForCommand are one step (notes/assumptions/24.md). -/
def Obligations.PublishResultEnqueues : Prop :=
  ∀ s : State, s.phase = .run → s.wstate = .publishResult →
    (s.resq.length < s.params.resqDepth →
      ∃ (c : Command) (r : Word) (n : Nat),
        workerTurn s = .next
          { s with resq := s.resq ++ [s.curRes], wstate := .waitForCommand, curCmd := c, curRes := r
                   env := { s.env with freeIndex := n } }) ∧
    (s.params.resqDepth ≤ s.resq.length → workerTurn s = .next s)

/-- W answers every command once: no step of W changes the number of requests in flight, so each word it dequeues
becomes exactly one result (R160, R72, R75). That it holds at each step, and not only once per iteration, rests on which
lines of R160 are one step (notes/assumptions/24.md). -/
def Obligations.WorkerKeepsRequestsInFlight : Prop :=
  ∀ s t : State, s.sequencerOk = true → workerTurn s = .next t → t.inFlight = s.inFlight

/-- Each queue delivers in the order of enqueue: any step but a hard reset leaves it alone, appends one word at its end,
or removes its first (R70, R71, R72). -/
def Obligations.QueuesAreFifo : Prop :=
  ∀ s t : State, s.sequencerOk = true → s.controlOk = true → s.env.nextInput.1 ≠ .hardReset → step s = .next t →
    (t.cmdq = s.cmdq ∨ (∃ w, t.cmdq = s.cmdq ++ [w]) ∨ (∃ w, s.cmdq = w :: t.cmdq)) ∧
    (t.resq = s.resq ∨ (∃ w, t.resq = s.resq ++ [w]) ∨ (∃ w, s.resq = w :: t.resq))

/-! ### The control port -/

/-- CMDQ_PUSH: `RegWrite(0x00, v)` stores all 32 bits as the last word of CMDQ in every phase, and holds while CMDQ is
full (R42). -/
def Obligations.CmdqPushEnqueuesOrHolds : Prop :=
  ∀ (s : State) (v : Word),
    (s.cmdq.length < s.params.cmdqDepth →
      portAccess (.regWrite 0x00 v) s = some (.written, { s with cmdq := s.cmdq ++ [v] })) ∧
    (s.params.cmdqDepth ≤ s.cmdq.length → portAccess (.regWrite 0x00 v) s = none)

/-- RESQ_POP: `RegRead(0x04)` removes and returns the oldest result, and holds while RESQ is empty (R43). -/
def Obligations.ResqPopDequeuesOrHolds : Prop :=
  ∀ s : State,
    (∀ r q, s.resq = r :: q → portAccess (.regRead 0x04) s = some (.word r, { s with resq := q })) ∧
    (s.resq = [] → portAccess (.regRead 0x04) s = none)

/-- STATUS, bit by bit (R44). -/
def Obligations.StatusBitsAreTheFields : Prop :=
  ∀ s : State,
    portAccess (.regRead 0x08) s = some (.word s.status, s) ∧
    s.status.getLsbD 0 = decide (s.phase = .run) ∧ s.status.getLsbD 1 = decide (s.phase = .halted) ∧
    s.status.getLsbD 2 = s.flags.geomValid ∧ s.status.getLsbD 3 = s.flags.errGeometry ∧
    s.status.getLsbD 4 = s.flags.errIoWidth ∧ s.status.getLsbD 5 = s.flags.errNotReady ∧
    s.status.getLsbD 6 = decide (s.cmdq.length = s.params.cmdqDepth) ∧
    s.status.getLsbD 7 = decide (1 ≤ s.resq.length) ∧
    s.status.getLsbD 8 = decide (s.phase = .init ∨ (s.phase = .run ∧ s.wstate ≠ .waitForCommand)) ∧
    ∀ k, 9 ≤ k → s.status.getLsbD k = false

/-- The read-only registers read without a side effect: the sizes of GEOM, or 0 with none (R45); DRIVE_STRENGTH (R46);
BOOT_ID packed little-endian, or 0 while it is not valid (R47); CMDQ_PUSH as 0 (R41). -/
def Obligations.RegistersReadTheirState : Prop :=
  ∀ s : State,
    (s.geom = none → portAccess (.regRead 0x0C) s = some (.word 0#32, s) ∧
      portAccess (.regRead 0x10) s = some (.word 0#32, s) ∧ portAccess (.regRead 0x14) s = some (.word 0#32, s)) ∧
    (∀ g, s.geom = some g → portAccess (.regRead 0x0C) s = some (.word g.pageSize, s) ∧
      portAccess (.regRead 0x10) s = some (.word g.spareSize, s) ∧
      portAccess (.regRead 0x14) s = some (.word g.totalSize, s)) ∧
    portAccess (.regRead 0x18) s = some (.word s.driveStrength, s) ∧
    (s.bootIdValid = false → portAccess (.regRead 0x1C) s = some (.word 0#32, s) ∧
      portAccess (.regRead 0x20) s = some (.word 0#32, s)) ∧
    (s.bootIdValid = true →
      portAccess (.regRead 0x1C) s = some (.word (BitVec.ofNat 32
        (s.bootId.b0.toNat + 2 ^ 8 * s.bootId.b1.toNat + 2 ^ 16 * s.bootId.b2.toNat + 2 ^ 24 * s.bootId.b3.toNat)), s) ∧
      portAccess (.regRead 0x20) s = some (.word (BitVec.ofNat 32 s.bootId.b4.toNat), s)) ∧
    portAccess (.regRead 0x00) s = some (.word 0#32, s)

/-- A transaction outside the map completes with PORT_ERR and changes no state; a write of a read-only register
completes and changes none (R40, R41, R64). -/
def Obligations.OutsideTheMapIsPortErr : Prop :=
  ∀ (s : State) (off i : Nat) (v : Word),
    (off ∉ [0x00, 0x04, 0x08, 0x0C, 0x10, 0x14, 0x18, 0x1C, 0x20] →
      portAccess (.regRead off) s = some (.portErr, s) ∧ portAccess (.regWrite off v) s = some (.portErr, s)) ∧
    (off ∈ [0x04, 0x08, 0x0C, 0x10, 0x14, 0x18, 0x1C, 0x20] → portAccess (.regWrite off v) s = some (.written, s)) ∧
    (s.params.bufSize ≤ i → portAccess (.bufRead i) s = some (.portErr, s)) ∧
    (i < s.params.bufSize → portAccess (.bufRead i) s = some (.byte (s.buf.read i), s))

/-- The transactions of an arbitrary control side, and what any control side can touch (R40, R60, R66, R70, R71, R204). While C
is in no other transaction, one completes with `portAccess`'s response and state, or holds; one that holds is tried
again at C's next turn, and changes nothing else until it completes. That C begins none while it is in another is the
model's choice (notes/assumptions/17.md), and that the displayed page counter keeps its value in them is
notes/assumptions/7.md's. Whatever the control side does, it touches nothing of the NFC but the tail
of CMDQ and the head of RESQ: BUF, PageCounter, the pins, GEOM, BOOT_ID, the flags and the sequencer are W's alone. -/
def Obligations.ControlSideTouchesOnlyTheQueues : Prop :=
  (∀ (s : State) (x : Txn), s.controlBusy = false →
    (∀ r u, portAccess x s = some (r, u) →
      takeInput (.port x) s = .next
        { u with control := { s.control with responses := s.control.responses ++ [(x, r)] } }) ∧
    (portAccess x s = none → takeInput (.port x) s = .next { s with control := { s.control with held := some x } })) ∧
  (∀ (s : State) (x : Txn), s.control.held = some x →
    (∀ r u, portAccess x s = some (r, u) →
      takeInput .control s = .next
        { u with control := { s.control with held := none, responses := s.control.responses ++ [(x, r)] } }) ∧
    (portAccess x s = none → takeInput .control s = .next s)) ∧
  (∀ (s : State) (x : Txn), s.controlBusy = true → takeInput (.port x) s = .next s) ∧
  ∀ (s t : State) (i : Input), s.controlOk = true → i ≠ .worker → i ≠ .hardReset → takeInput i s = .next t →
    t = { s with cmdq := t.cmdq, resq := t.resq, control := t.control
                 env := { s.env with freeIndex := t.env.freeIndex } }

/-! ### Startup, reset, phases -/

/-- The startup sequence with a chip that answers: 0xFF, 0x90, the five bytes latched in BOOT_ID, GEOM and the flags as
`DecodeGeometry` and `CheckIoWidth` say, then RUN, or HALTED with the cause visible (R242, R215, R216, R217). The 83 + k
steps are those of notes/assumptions/9.md. -/
def Obligations.StartupIdentifiesTheChip : Prop :=
  ∀ (p : Params) (id : IdBytes) (k n : Nat) (ys : List Level) (zs : List Byte),
    patient p k = true →
    runFor step (83 + k)
      { State.resetFor p with
        env := { inputs := [], ryIn := List.replicate k false ++ true :: ys
                 sampleIn := id.b0 :: id.b1 :: id.b2 :: id.b3 :: id.b4 :: zs, freeIndex := n } } =
    .next
      { State.resetFor p with
        pins := { (Pins.reset p.wpLevel).afterRead with ioOut := 0x00#8 }
        bootId := id, bootIdValid := true, geom := decodeGeometry id
        flags := { geomValid := (decodeGeometry id).isSome, errGeometry := (decodeGeometry id).isNone
                   errIoWidth := !checkIoWidth id, errNotReady := false }
        phase := if (decodeGeometry id).isSome = true ∧ checkIoWidth id = true then .run else .halted
        seq := [], byteIdx := 5, ryPolls := k
        trace := resetTrace ++ idSetupTrace ++ readBytesTrace k [id.b0, id.b1, id.b2, id.b3, id.b4]
        env := { inputs := [], ryIn := ys, sampleIn := zs, freeIndex := n } }

/-- The startup sequence with `RY_TIMEOUT = some n` and RY reading 0 n times: HALTED with ERR_NOTREADY alone, BOOT_ID,
GEOM and BUF as at reset (R242, R215, R216). The 41 + n steps are those of notes/assumptions/9.md. -/
def Obligations.StartupHaltsWhenNotReady : Prop :=
  ∀ (p : Params) (n m : Nat) (ys : List Level) (zs : List Byte), p.ryTimeout = some n →
    runFor step (41 + n)
      { State.resetFor p with
        env := { inputs := [], ryIn := List.replicate n false ++ ys, sampleIn := zs, freeIndex := m } } =
    .next
      { State.resetFor p with
        pins := { (Pins.reset p.wpLevel).afterRead with ioOut := 0x00#8 }
        flags := { geomValid := false, errGeometry := false, errIoWidth := false, errNotReady := true }
        phase := .halted, seq := [], ret := .notReady, ryPolls := n
        trace := resetTrace ++ idSetupTrace ++ notReadyTrace n
        env := { inputs := [], ryIn := ys, sampleIn := zs, freeIndex := m } }

/-- Hard reset, at any step, gives every piece of state the value of R52, with the parameters kept and the chip's answers
untouched; the state after reset is such a state (R52, R240, R241). -/
def Obligations.HardResetGivesTheResetValues : Prop :=
  State.reset.atReset ∧
  ∀ (s : State) (rest : List Input), s.env.inputs = .hardReset :: rest →
    ∃ t, step s = .next t ∧ t.atReset ∧ t.params = s.params ∧ t.env = { s.env with inputs := rest }

/-- In HALTED W takes no step, and any step but a hard reset leaves every piece of the NFC's state but the queues as it is,
and neither dequeues CMDQ nor enqueues RESQ (R20, R218, R219). -/
def Obligations.HaltedStaysHalted : Prop :=
  ∀ s t : State, s.phase = .halted → s.controlOk = true → s.env.nextInput.1 ≠ .hardReset → step s = .next t →
    t.params = s.params ∧ t.pinMap = s.pinMap ∧ t.driveStrength = s.driveStrength ∧ t.pins = s.pins ∧
      t.pageCounter = s.pageCounter ∧ t.bootId = s.bootId ∧ t.bootIdValid = s.bootIdValid ∧ t.geom = s.geom ∧
      t.curCmd = s.curCmd ∧ t.curRes = s.curRes ∧ t.phase = .halted ∧ t.wstate = s.wstate ∧ t.seq = s.seq ∧
      t.ret = s.ret ∧ t.byteIdx = s.byteIdx ∧ t.ryPolls = s.ryPolls ∧ t.flags = s.flags ∧ t.buf = s.buf ∧
      t.trace = s.trace ∧ (t.cmdq = s.cmdq ∨ ∃ w, t.cmdq = s.cmdq ++ [w]) ∧
      (t.resq = s.resq ∨ ∃ w, s.resq = w :: t.resq) ∧
      (s.env.nextInput.1 = .worker → t = { s with env := s.env.nextInput.2 })

/-- RUN and HALTED are left only by hard reset, the flags and GEOM change only in INIT, and outside a hard reset no flag
is ever cleared (R30, R35, R219, R222). -/
def Obligations.PhasesAndFlagsAreSticky : Prop :=
  ∀ s t : State, s.sequencerOk = true → s.controlOk = true → s.env.nextInput.1 ≠ .hardReset → step s = .next t →
    (s.phase = .run → t.phase = .run) ∧ (s.phase = .halted → t.phase = .halted) ∧
    (s.phase ≠ .init → t.flags = s.flags ∧ t.geom = s.geom ∧ t.bootId = s.bootId ∧ t.bootIdValid = s.bootIdValid) ∧
    (s.flags.geomValid = true → t.flags.geomValid = true) ∧ (s.flags.errGeometry = true → t.flags.errGeometry = true) ∧
    (s.flags.errIoWidth = true → t.flags.errIoWidth = true) ∧
    (s.flags.errNotReady = true → t.flags.errNotReady = true)

/-! ### The host bytes -/

/-- The first step of host bytes `'0'` to `'3'`: the command word goes to CMDQ_PUSH, or holds while CMDQ is full (R190,
R193 to R196, R101). That the displayed page counter keeps its value here is the model's choice (notes/assumptions/7.md), and
so is that taking the byte belongs to the turn of its push (notes/assumptions/12.md). -/
def Obligations.HostBytePushesItsCommand : Prop :=
  ∀ (s : State) (i : Instr) (w : Word), hostCommandWord i = some w →
    (s.control.pos = .serve i .push ∨ ∀ st, s.control.pos ≠ .serve i st) →
    (s.cmdq.length < s.params.cmdqDepth →
      exec i s = .next
        { s with cmdq := s.cmdq ++ [w]
                 control := { s.control with
                   pos := .serve i .pop
                   responses := s.control.responses ++ [(.regWrite 0x00 w, .written)] } }) ∧
    (s.params.cmdqDepth ≤ s.cmdq.length →
      exec i s = .next { s with control := { s.control with pos := .serve i .push } })

/-- The second step of host bytes `'0'` to `'3'`: RESQ_POP holds while RESQ is empty; otherwise the size is tested, an
error with the returned size is reported on failure, and on success the payload is read next where the byte has one
(R190, R193 to R196, R201). The test of `'3'`, size 1, is no test the spec states: R196 infers it by symmetry, and that the
model takes it is its choice (notes/assumptions/18.md); so are that the displayed page counter takes a value, left open, when the
byte is served and at no other moment, that nothing but the report is printed (both notes/assumptions/7.md), and that test
and report belong to the turn of the pop (notes/assumptions/12.md). -/
def Obligations.HostBytePopsItsResult : Prop :=
  ∀ (s : State) (i : Instr) (w : Word), hostCommandWord i = some w → s.control.pos = .serve i .pop →
    (s.resq = [] → exec i s = .next s) ∧
    (∀ r q, s.resq = r :: q → hostAccepts s i r.toInt = true → (hostPayload i []).isSome = true →
      exec i s = .next
        { s with resq := q
                 control := { s.control with
                   pos := .serve i (.copy r.toNat 0 [])
                   responses := s.control.responses ++ [(.regRead 0x04, .word r)] } }) ∧
    (∀ r q, s.resq = r :: q → hostAccepts s i r.toInt = true → hostPayload i [] = none →
      ∃ (shown : Word) (n : Nat), exec i s = .next
        { s with resq := q
                 control := { s.control with
                   pos := .idle, shownPage := shown
                   responses := s.control.responses ++ [(.regRead 0x04, .word r)] }
                 env := { s.env with freeIndex := n } }) ∧
    (∀ r q, s.resq = r :: q → hostAccepts s i r.toInt = false →
      ∃ (shown : Word) (n : Nat), exec i s = .next
        { s with resq := q
                 control := { s.control with
                   pos := .idle, shownPage := shown
                   responses := s.control.responses ++ [(.regRead 0x04, .word r)]
                   reports := s.control.reports ++ [.error r.toInt] }
                 env := { s.env with freeIndex := n } })

/-- The payload of host bytes `'0'` and `'1'`: one `BufRead` per step, from 0 upward, then the bytes of BUF are reported
in order and the byte is served (R193, R194). That the report is all that is printed, and that the displayed page counter
takes a value, left open, when the byte is served and at no other moment, are the model's choices (notes/assumptions/7.md); so
is that the report falls in the turn of the last `BufRead`, so that `size` steps serve the byte (notes/assumptions/12.md). -/
def Obligations.HostByteReportsThePayload : Prop :=
  ∀ (s : State) (i : Instr) (rep : Report) (size : Nat),
    hostPayload i (s.buf.readBytes 0 size) = some rep → s.control.pos = .serve i (.copy size 0 []) →
    0 < size → size ≤ s.params.bufSize →
    ∃ (shown : Word) (n : Nat), runFor (exec i) size s = .next
      { s with control := { s.control with
                 pos := .idle, shownPage := shown
                 responses := s.control.responses ++
                   (List.range size).map (fun a => (.bufRead a, .byte (s.buf.read a)))
                 reports := s.control.reports ++ [rep] }
               env := { s.env with freeIndex := n } }

/-- `'4'` reads register 0x18 and reports DRIVE_STRENGTH; `'5'` reports the startup sizes as comma-separated decimals; neither
makes an exchange (R197, R198; S5). That `'5'` answers from C's startup copy and makes no transaction is the model's
choice of the two sources R198 allows (notes/assumptions/23.md). So are that the displayed page counter keeps its value and
is not printed meanwhile (notes/assumptions/7.md), and that `'4'` reads and reports in one turn (notes/assumptions/12.md). -/
def Obligations.HostQueriesMakeNoExchange : Prop :=
  (∀ s : State, exec .hostGetDrive s = .next
    { s with control := { s.control with
               pos := .idle
               responses := s.control.responses ++ [(.regRead 0x18, .word s.driveStrength)]
               reports := s.control.reports ++ [.driveStrength s.driveStrength] } }) ∧
  (∀ s : State, exec .hostGetInfo s = .next
    { s with control := { s.control with
               pos := .idle, reports := s.control.reports ++ [.line (geometryLine s.control.sizes)] } }) ∧
  geometryLine { pageSize := 4096#32, spareSize := 256#32, totalSize := 570425344#32 } = "4096,256,570425344".toList

/-- The bytes of the serial link. One that arrives is appended (R100, R191). `'3'` with fewer than three argument bytes leaves
an idle turn of C without effect, and a timeout on an argument byte discards the partial command with no control-port
transaction (R196; S3): that bytes wait in a list and that the wait may end at any moment are the model's choices
(notes/assumptions/16.md). A byte outside `'0'` to `'5'` prints the help text with no transaction, and so does an idle
turn with no byte (R199), which is R199 read literally (notes/assumptions/14.md). In all of these the displayed page counter keeps its
value and is not printed: the model's choice (notes/assumptions/7.md). -/
def Obligations.DiscardedBytesReachNoQueue : Prop :=
  (∀ (s : State) (b : Byte), takeInput (.hostByte b) s = .next
    { s with control := { s.control with serialIn := s.control.serialIn ++ [b] } }) ∧
  (∀ (s : State) (bs : List Byte), s.control.pos = .idle → s.control.held = none → bs.length < 3 →
    s.control.serialIn = 0x33#8 :: bs →
    controlTurn s = .next s ∧
    takeInput .argTimeout s = .next
      { s with control := { s.control with serialIn := [], reports := s.control.reports ++ [.argTimeout] } }) ∧
  (∀ (s : State) (b : Byte) (rest : List Byte), s.control.pos = .idle → s.control.held = none →
    s.control.serialIn = b :: rest → ¬ (0x30 ≤ b.toNat ∧ b.toNat ≤ 0x35) →
    controlTurn s = .next
      { s with control := { s.control with serialIn := rest, reports := s.control.reports ++ [.help] } }) ∧
  (∀ s : State, s.control.pos = .idle → s.control.held = none → s.control.serialIn = [] →
    controlTurn s = .next { s with control := { s.control with reports := s.control.reports ++ [.help] } })

/-- The control side starts: it polls STATUS until READY or HALTED; on HALTED it stops, and takes no further step; on READY it
reads the three sizes and then waits for host bytes (R191, R244). That each turn is one transaction is the model's choice
(notes/assumptions/12.md), and so is that the displayed page counter keeps its value (notes/assumptions/7.md). -/
def Obligations.ControlSideReadsTheGeometry : Prop :=
  (∀ s : State, s.control.held = none → s.control.pos = .bootPoll →
    (s.phase = .init → controlTurn s = .next
      { s with control := { s.control with
                 responses := s.control.responses ++ [(.regRead 0x08, .word s.status)] } }) ∧
    (s.phase = .halted → controlTurn s = .next
      { s with control := { s.control with
                 pos := .stopped, responses := s.control.responses ++ [(.regRead 0x08, .word s.status)] } }) ∧
    (∀ g, s.phase = .run → s.geom = some g →
      runFor controlTurn 4 s = .next
        { s with control := { s.control with
                   pos := .idle, sizes := g
                   responses := s.control.responses ++
                     [(.regRead 0x08, .word s.status), (.regRead 0x0C, .word g.pageSize),
                      (.regRead 0x10, .word g.spareSize), (.regRead 0x14, .word g.totalSize)] } })) ∧
  ∀ s : State, s.control.held = none → s.control.pos = .stopped → controlTurn s = .next s

/-! ### The whole machine -/

/-- A step runs the fetched instruction: in Execute outside a bus operation, exec of what CUR_CMD decodes to; inside a bus
operation, exec of what its opcode decodes to; at a turn of an idle control side, exec of the host byte on the serial
link, past its bytes; while it serves one, exec of that one (R162, R191, R242). That inside a bus operation W's instruction is
the one its NAND opcode decodes to is the model's choice (notes/assumptions/12.md): R162 dispatches on CUR_CMD. -/
def Obligations.StepRunsTheFetchedInstruction : Prop :=
  (∀ (s : State) (e : Env), s.env.nextInput = (.worker, e) → s.phase = .run → s.wstate = .execute →
    busOpcode s.seq = none → step s = exec (decodeCommand s.curCmd) { s with env := e }) ∧
  (∀ (s : State) (e : Env) (b : Byte) (i : Instr), s.env.nextInput = (.worker, e) →
    s.phase = .init ∨ (s.phase = .run ∧ s.wstate = .execute) → busOpcode s.seq = some b →
    decode (.nandcmd b) = some i → step s = exec i { s with env := e }) ∧
  (∀ (s : State) (e : Env) (i : Instr) (rest : List Byte), s.env.nextInput = (.control, e) → s.control.held = none →
    s.control.pos = .idle → fetchSerial s.control.serialIn = .complete i rest →
    step s = exec i { s with env := e, control := { s.control with serialIn := rest } }) ∧
  (∀ (s : State) (e : Env) (i : Instr) (st : Stage), s.env.nextInput = (.control, e) → s.control.held = none →
    s.control.pos = .serve i st → step s = exec i { s with env := e })

/-- Every instruction of the opcode table takes its first atomic step to a next state from an idle sequencer, the two
halves of the page read with a geometry present (R104, R150, R210). That a NAND opcode can start on its own is the model's
choice (notes/assumptions/12.md), and so is the fault without a geometry (notes/assumptions/5.md). For host bytes `'0'`
to `'3'` with CMDQ full the step is the hold; HostBytePushesItsCommand says where they push. -/
def Obligations.EveryInstructionAnswersNext : Prop :=
  ∀ (s : State) (i : Instr), s.seq = [] →
    (i = .nandReadSetup ∨ i = .nandReadConfirm → s.geom.isSome = true) → ∃ t, exec i s = .next t

/-- Calls nest at most four deep (R32, R173). -/
def Obligations.CallsNestAtMostFourDeep : Prop :=
  ∀ s : State, s.sequencerOk = true → s.seq.length ≤ 4

/-- Every step keeps the canonical form of BUF and its bounds (R38). -/
def Obligations.StepKeepsTheBufferCanonical : Prop :=
  ∀ s t : State, s.bufOk = true → step s = .next t → t.bufOk = true

/-- The invariant of the machine holds right after reset, for every choice of the OPEN parameters. -/
def Obligations.InvariantHoldsAtReset : Prop :=
  State.reset.inv = true ∧ ∀ p : Params, (State.resetFor p).inv = true

/-- Every step keeps the invariant, and the parameters, PINMAP and DRIVE_STRENGTH (R7, R24, R25): PageCounter at most 2^17
(R26), the queues within their depths (R36, R37), GEOM one of its three values and GEOM_VALID with it (R28, R35), `phase`,
BOOT_ID and the flags consistent (R35, R215, R217), the control pins fit the sequencer's position and are idle between
primitives (R53), WPn at WP_LEVEL (R21), the sequencer's calls well nested (R32), BUF canonical (R38). -/
def Obligations.StepKeepsTheInvariant : Prop :=
  ∀ s t : State, s.inv = true → step s = .next t →
    t.inv = true ∧ t.params = s.params ∧ t.pinMap = s.pinMap ∧ t.driveStrength = s.driveStrength ∧
      t.pins.wpn = s.pins.wpn

/-- The machine never stops: from every state that meets the invariant a step answers a next state, so no fault and no
refusal is ever reached (R104, R210). -/
def Obligations.NoStepFaultsOrRefuses : Prop :=
  ∀ s : State, s.inv = true → ∃ t, step s = .next t
end

