-- ==== Sys2Proof/Laws/Memory.lean ====
section
/-! SUPPORT. The laws of the Shared Bulk Buffer: what a read finds after a write, that every operation keeps the canonical
form and the bounds, and that equal reads make equal buffers. -/

namespace Sys2Proof.Machine

@[simp] theorem Memory.read_nil (a : Nat) : Memory.read [] a = 0x00#8 := rfl

theorem Memory.read_below : ∀ (m : Memory) (lo a : Nat), Memory.wfFrom lo m = true → a < lo → Memory.read m a = 0x00#8
  | [], _, _, _, _ => rfl
  | (k, b) :: m, lo, a, h, ha => by
    simp only [Memory.wfFrom, Bool.and_eq_true, decide_eq_true_eq] at h
    obtain ⟨⟨hk, -⟩, hm⟩ := h
    have hne : k ≠ a := by omega
    simp only [Memory.read, if_neg hne]
    exact Memory.read_below m (k + 1) a hm (by omega)

theorem Memory.wfFrom_mono : ∀ (m : Memory) (lo lo' : Nat), lo' ≤ lo → Memory.wfFrom lo m = true → Memory.wfFrom lo' m = true
  | [], _, _, _, _ => rfl
  | (k, b) :: m, lo, lo', hl, h => by
    simp only [Memory.wfFrom, Bool.and_eq_true, decide_eq_true_eq] at h ⊢
    exact ⟨⟨by omega, h.1.2⟩, h.2⟩

theorem Memory.wfFrom_write : ∀ (m : Memory) (lo a : Nat) (v : Byte), lo ≤ a → Memory.wfFrom lo m = true →
    Memory.wfFrom lo (Memory.write m a v) = true
  | [], lo, a, v, ha, _ => by
    by_cases hv : v = 0x00#8 <;> simp [Memory.write, Memory.wfFrom, hv, ha]
  | (k, b) :: m, lo, a, v, ha, h => by
    simp only [Memory.wfFrom, Bool.and_eq_true, decide_eq_true_eq] at h
    obtain ⟨⟨hk, hb⟩, hm⟩ := h
    unfold Memory.write
    by_cases h1 : a < k
    · by_cases hv : v = 0x00#8
      · simp [h1, hv, Memory.wfFrom, hk, hm, hb]
      · simp [h1, hv, Memory.wfFrom, hm, hb, ha, Nat.succ_le_of_lt h1]
    · by_cases h2 : a = k
      · subst h2
        by_cases hv : v = 0x00#8
        · simp only [h1, hv, if_true, if_false]
          exact Memory.wfFrom_mono m _ _ (by omega) hm
        · simp [hv, Memory.wfFrom, hm, hk]
      · simp only [h1, h2, if_false, Memory.wfFrom, Bool.and_eq_true, decide_eq_true_eq]
        exact ⟨⟨hk, hb⟩, Memory.wfFrom_write m (k + 1) a v (by omega) hm⟩

/-- A write keeps the canonical form. -/
theorem Memory.wf_write (m : Memory) (a : Nat) (v : Byte) (h : m.wf = true) : (m.write a v).wf = true :=
  Memory.wfFrom_write m 0 a v (Nat.zero_le a) h

/-- A write inside the buffer keeps the listed indices inside it. -/
theorem Memory.within_write : ∀ (m : Memory) (size a : Nat) (v : Byte), a < size → Memory.within m size = true →
    Memory.within (Memory.write m a v) size = true
  | [], size, a, v, ha, _ => by by_cases hv : v = 0x00#8 <;> simp [Memory.write, Memory.within, hv, ha]
  | (k, b) :: m, size, a, v, ha, h => by
    have h' : k < size ∧ m.all (fun c => decide (c.1 < size)) = true := by
      simpa only [Memory.within, List.all_cons, Bool.and_eq_true, decide_eq_true_eq] using h
    have ih : (Memory.write m a v).all (fun c => decide (c.1 < size)) = true :=
      Memory.within_write m size a v ha h'.2
    unfold Memory.write Memory.within
    split_ifs
    · simpa only [List.all_cons, Bool.and_eq_true, decide_eq_true_eq] using h'
    · simpa only [List.all_cons, Bool.and_eq_true, decide_eq_true_eq] using ⟨ha, h'⟩
    · exact h'.2
    · simpa only [List.all_cons, Bool.and_eq_true, decide_eq_true_eq] using ⟨ha, h'.2⟩
    · simpa only [List.all_cons, Bool.and_eq_true, decide_eq_true_eq] using ⟨h'.1, ih⟩

/-- A read of the index written gives the byte written. -/
theorem Memory.read_write_same : ∀ (m : Memory) (lo a : Nat) (v : Byte), Memory.wfFrom lo m = true →
    Memory.read (Memory.write m a v) a = v
  | [], _, a, v, _ => by by_cases hv : v = 0x00#8 <;> simp [Memory.write, Memory.read, hv]
  | (k, b) :: m, lo, a, v, h => by
    simp only [Memory.wfFrom, Bool.and_eq_true, decide_eq_true_eq] at h
    obtain ⟨⟨hk, hb⟩, hm⟩ := h
    unfold Memory.write
    by_cases h1 : a < k
    · by_cases hv : v = 0x00#8
      · have hne : k ≠ a := by omega
        simp only [h1, hv, if_true, Memory.read, if_neg hne]
        exact Memory.read_below m (k + 1) a hm (by omega)
      · simp [h1, hv, Memory.read]
    · by_cases h2 : a = k
      · subst h2
        by_cases hv : v = 0x00#8
        · simp only [h1, hv, if_true, if_false]
          exact Memory.read_below m (a + 1) a hm (by omega)
        · simp [hv, Memory.read]
      · have hne : k ≠ a := fun e => h2 e.symm
        simp only [h1, h2, if_false, Memory.read, if_neg hne]
        exact Memory.read_write_same m (k + 1) a v hm

/-- A read of any other index is unchanged. -/
theorem Memory.read_write_other : ∀ (m : Memory) (a a' : Nat) (v : Byte), a' ≠ a →
    Memory.read (Memory.write m a v) a' = Memory.read m a'
  | [], a, a', v, h => by
    by_cases hv : v = 0x00#8 <;> simp [Memory.write, Memory.read, hv, h.symm]
  | (k, b) :: m, a, a', v, h => by
    unfold Memory.write
    have ih := Memory.read_write_other m a a' v h
    by_cases h1 : a < k
    · by_cases hv : v = 0x00#8 <;> simp [h1, hv, Memory.read, h.symm]
    · by_cases h2 : a = k
      · subst h2
        by_cases hv : v = 0x00#8 <;> simp [hv, Memory.read, h.symm]
      · simp only [h1, h2, if_false, Memory.read, ih]

/-- What any read finds after a write into a canonical buffer. -/
theorem Memory.read_write (m : Memory) (a a' : Nat) (v : Byte) (h : m.wf = true) :
    (m.write a v).read a' = if a' = a then v else m.read a' := by
  by_cases e : a' = a
  · subst e; simpa using Memory.read_write_same m 0 a' v h
  · simpa [e] using Memory.read_write_other m a a' v e

theorem Memory.eq_of_read_from : ∀ (m m' : Memory) (lo : Nat), Memory.wfFrom lo m = true → Memory.wfFrom lo m' = true →
    (∀ a, Memory.read m a = Memory.read m' a) → m = m'
  | [], [], _, _, _, _ => rfl
  | [], (k, b) :: m', lo, _, h', e => by
    simp only [Memory.wfFrom, Bool.and_eq_true, bne_iff_ne] at h'
    have := e k
    simp [Memory.read] at this
    exact absurd this.symm h'.1.2
  | (k, b) :: m, [], lo, h, _, e => by
    simp only [Memory.wfFrom, Bool.and_eq_true, bne_iff_ne] at h
    have := e k
    simp [Memory.read] at this
    exact absurd this h.1.2
  | (k, b) :: m, (k', b') :: m', lo, h, h', e => by
    simp only [Memory.wfFrom, Bool.and_eq_true, bne_iff_ne, decide_eq_true_eq] at h h'
    have hkk : k = k' := by
      rcases Nat.lt_trichotomy k k' with hlt | heq | hgt
      · have := e k
        simp only [Memory.read, if_true, if_neg (Nat.ne_of_gt hlt),
          Memory.read_below m' (k' + 1) k h'.2 (by omega)] at this
        exact absurd this h.1.2
      · exact heq
      · have := e k'
        simp only [Memory.read, if_true, if_neg (Nat.ne_of_gt hgt),
          Memory.read_below m (k + 1) k' h.2 (by omega)] at this
        exact absurd this.symm h'.1.2
    subst hkk
    have hb : b = b' := by simpa [Memory.read] using e k
    subst hb
    have hm : m = m' := by
      refine Memory.eq_of_read_from m m' (k + 1) h.2 h'.2 fun a => ?_
      by_cases ha : k = a
      · subst ha
        rw [Memory.read_below m (k + 1) k h.2 (by omega), Memory.read_below m' (k + 1) k h'.2 (by omega)]
      · simpa [Memory.read, ha] using e a
    rw [hm]

/-- Two canonical buffers that read alike are the same. -/
theorem Memory.eq_of_read_eq (m m' : Memory) (h : m.wf = true) (h' : m'.wf = true)
    (e : ∀ a, m.read a = m'.read a) : m = m' :=
  Memory.eq_of_read_from m m' 0 h h' e

/-- Beyond the buffer every index reads as 0x00. -/
theorem Memory.read_of_within : ∀ (m : Memory) (size a : Nat), Memory.within m size = true → size ≤ a →
    Memory.read m a = 0x00#8
  | [], _, _, _, _ => rfl
  | (k, b) :: m, size, a, h, ha => by
    have h' : k < size ∧ Memory.within m size = true := by simpa [Memory.within] using h
    have hne : k ≠ a := by omega
    simp only [Memory.read, if_neg hne]
    exact Memory.read_of_within m size a h'.2 ha

theorem Memory.wf_writeBytes : ∀ (bs : List Byte) (m : Memory) (a : Nat), m.wf = true → (m.writeBytes a bs).wf = true
  | [], _, _, h => h
  | b :: bs, m, a, h => Memory.wf_writeBytes bs (m.write a b) (a + 1) (Memory.wf_write m a b h)

/-- What any read finds after consecutive bytes have been written. -/
theorem Memory.read_writeBytes : ∀ (bs : List Byte) (m : Memory) (a a' : Nat), m.wf = true →
    (m.writeBytes a bs).read a' = if h : a ≤ a' ∧ a' < a + bs.length then bs[a' - a]'(by omega) else m.read a'
  | [], m, a, a', _ => by
    simp [Memory.writeBytes]
  | b :: bs, m, a, a', h => by
    simp only [Memory.writeBytes]
    rw [Memory.read_writeBytes bs (m.write a b) (a + 1) a' (Memory.wf_write m a b h), Memory.read_write m a a' b h]
    by_cases e : a' = a
    · subst e
      simp
    · by_cases hin : a + 1 ≤ a' ∧ a' < a + 1 + bs.length
      · have h2 : a ≤ a' ∧ a' < a + (b :: bs).length := by simp only [List.length_cons]; omega
        rw [dif_pos hin, dif_pos h2]
        have : a' - a = (a' - (a + 1)) + 1 := by omega
        simp [this]
      · have h2 : ¬ (a ≤ a' ∧ a' < a + (b :: bs).length) := by simp only [List.length_cons]; omega
        rw [dif_neg hin, dif_neg h2, if_neg e]

end Sys2Proof.Machine
end

