-- ==== Sys2Proof/Laws/State.lean ====
section
/-! SUPPORT. One lemma per field of `State` for every named update of it, so that no later proof unfolds a record update. -/

namespace Sys2Proof.Machine

/-! ### `State.emit` -/

@[simp] theorem State.emit_params (s : State) (e : PinEvent) :
    (s.emit e).params = s.params := rfl
@[simp] theorem State.emit_pinMap (s : State) (e : PinEvent) :
    (s.emit e).pinMap = s.pinMap := rfl
@[simp] theorem State.emit_driveStrength (s : State) (e : PinEvent) :
    (s.emit e).driveStrength = s.driveStrength := rfl
@[simp] theorem State.emit_pins (s : State) (e : PinEvent) :
    (s.emit e).pins = s.pins := rfl
@[simp] theorem State.emit_pageCounter (s : State) (e : PinEvent) :
    (s.emit e).pageCounter = s.pageCounter := rfl
@[simp] theorem State.emit_bootId (s : State) (e : PinEvent) :
    (s.emit e).bootId = s.bootId := rfl
@[simp] theorem State.emit_bootIdValid (s : State) (e : PinEvent) :
    (s.emit e).bootIdValid = s.bootIdValid := rfl
@[simp] theorem State.emit_geom (s : State) (e : PinEvent) :
    (s.emit e).geom = s.geom := rfl
@[simp] theorem State.emit_curCmd (s : State) (e : PinEvent) :
    (s.emit e).curCmd = s.curCmd := rfl
@[simp] theorem State.emit_curRes (s : State) (e : PinEvent) :
    (s.emit e).curRes = s.curRes := rfl
@[simp] theorem State.emit_phase (s : State) (e : PinEvent) :
    (s.emit e).phase = s.phase := rfl
@[simp] theorem State.emit_wstate (s : State) (e : PinEvent) :
    (s.emit e).wstate = s.wstate := rfl
@[simp] theorem State.emit_seq (s : State) (e : PinEvent) :
    (s.emit e).seq = s.seq := rfl
@[simp] theorem State.emit_ret (s : State) (e : PinEvent) :
    (s.emit e).ret = s.ret := rfl
@[simp] theorem State.emit_byteIdx (s : State) (e : PinEvent) :
    (s.emit e).byteIdx = s.byteIdx := rfl
@[simp] theorem State.emit_ryPolls (s : State) (e : PinEvent) :
    (s.emit e).ryPolls = s.ryPolls := rfl
@[simp] theorem State.emit_flags (s : State) (e : PinEvent) :
    (s.emit e).flags = s.flags := rfl
@[simp] theorem State.emit_cmdq (s : State) (e : PinEvent) :
    (s.emit e).cmdq = s.cmdq := rfl
@[simp] theorem State.emit_resq (s : State) (e : PinEvent) :
    (s.emit e).resq = s.resq := rfl
@[simp] theorem State.emit_buf (s : State) (e : PinEvent) :
    (s.emit e).buf = s.buf := rfl
@[simp] theorem State.emit_trace (s : State) (e : PinEvent) :
    (s.emit e).trace = s.trace ++ [e] := rfl
@[simp] theorem State.emit_control (s : State) (e : PinEvent) :
    (s.emit e).control = s.control := rfl
@[simp] theorem State.emit_env (s : State) (e : PinEvent) :
    (s.emit e).env = s.env := rfl

/-! ### `State.drive` -/

@[simp] theorem State.drive_params (s : State) (p : Pin) (v : Level) :
    (s.drive p v).params = s.params := rfl
@[simp] theorem State.drive_pinMap (s : State) (p : Pin) (v : Level) :
    (s.drive p v).pinMap = s.pinMap := rfl
@[simp] theorem State.drive_driveStrength (s : State) (p : Pin) (v : Level) :
    (s.drive p v).driveStrength = s.driveStrength := rfl
@[simp] theorem State.drive_pins (s : State) (p : Pin) (v : Level) :
    (s.drive p v).pins = s.pins.set p v := rfl
@[simp] theorem State.drive_pageCounter (s : State) (p : Pin) (v : Level) :
    (s.drive p v).pageCounter = s.pageCounter := rfl
@[simp] theorem State.drive_bootId (s : State) (p : Pin) (v : Level) :
    (s.drive p v).bootId = s.bootId := rfl
@[simp] theorem State.drive_bootIdValid (s : State) (p : Pin) (v : Level) :
    (s.drive p v).bootIdValid = s.bootIdValid := rfl
@[simp] theorem State.drive_geom (s : State) (p : Pin) (v : Level) :
    (s.drive p v).geom = s.geom := rfl
@[simp] theorem State.drive_curCmd (s : State) (p : Pin) (v : Level) :
    (s.drive p v).curCmd = s.curCmd := rfl
@[simp] theorem State.drive_curRes (s : State) (p : Pin) (v : Level) :
    (s.drive p v).curRes = s.curRes := rfl
@[simp] theorem State.drive_phase (s : State) (p : Pin) (v : Level) :
    (s.drive p v).phase = s.phase := rfl
@[simp] theorem State.drive_wstate (s : State) (p : Pin) (v : Level) :
    (s.drive p v).wstate = s.wstate := rfl
@[simp] theorem State.drive_seq (s : State) (p : Pin) (v : Level) :
    (s.drive p v).seq = s.seq := rfl
@[simp] theorem State.drive_ret (s : State) (p : Pin) (v : Level) :
    (s.drive p v).ret = s.ret := rfl
@[simp] theorem State.drive_byteIdx (s : State) (p : Pin) (v : Level) :
    (s.drive p v).byteIdx = s.byteIdx := rfl
@[simp] theorem State.drive_ryPolls (s : State) (p : Pin) (v : Level) :
    (s.drive p v).ryPolls = s.ryPolls := rfl
@[simp] theorem State.drive_flags (s : State) (p : Pin) (v : Level) :
    (s.drive p v).flags = s.flags := rfl
@[simp] theorem State.drive_cmdq (s : State) (p : Pin) (v : Level) :
    (s.drive p v).cmdq = s.cmdq := rfl
@[simp] theorem State.drive_resq (s : State) (p : Pin) (v : Level) :
    (s.drive p v).resq = s.resq := rfl
@[simp] theorem State.drive_buf (s : State) (p : Pin) (v : Level) :
    (s.drive p v).buf = s.buf := rfl
@[simp] theorem State.drive_trace (s : State) (p : Pin) (v : Level) :
    (s.drive p v).trace = s.trace ++ [.pin p v] := rfl
@[simp] theorem State.drive_control (s : State) (p : Pin) (v : Level) :
    (s.drive p v).control = s.control := rfl
@[simp] theorem State.drive_env (s : State) (p : Pin) (v : Level) :
    (s.drive p v).env = s.env := rfl

/-! ### `State.setDir` -/

@[simp] theorem State.setDir_params (s : State) (d : IoDir) :
    (s.setDir d).params = s.params := rfl
@[simp] theorem State.setDir_pinMap (s : State) (d : IoDir) :
    (s.setDir d).pinMap = s.pinMap := rfl
@[simp] theorem State.setDir_driveStrength (s : State) (d : IoDir) :
    (s.setDir d).driveStrength = s.driveStrength := rfl
@[simp] theorem State.setDir_pins (s : State) (d : IoDir) :
    (s.setDir d).pins = { s.pins with ioDir := d } := rfl
@[simp] theorem State.setDir_pageCounter (s : State) (d : IoDir) :
    (s.setDir d).pageCounter = s.pageCounter := rfl
@[simp] theorem State.setDir_bootId (s : State) (d : IoDir) :
    (s.setDir d).bootId = s.bootId := rfl
@[simp] theorem State.setDir_bootIdValid (s : State) (d : IoDir) :
    (s.setDir d).bootIdValid = s.bootIdValid := rfl
@[simp] theorem State.setDir_geom (s : State) (d : IoDir) :
    (s.setDir d).geom = s.geom := rfl
@[simp] theorem State.setDir_curCmd (s : State) (d : IoDir) :
    (s.setDir d).curCmd = s.curCmd := rfl
@[simp] theorem State.setDir_curRes (s : State) (d : IoDir) :
    (s.setDir d).curRes = s.curRes := rfl
@[simp] theorem State.setDir_phase (s : State) (d : IoDir) :
    (s.setDir d).phase = s.phase := rfl
@[simp] theorem State.setDir_wstate (s : State) (d : IoDir) :
    (s.setDir d).wstate = s.wstate := rfl
@[simp] theorem State.setDir_seq (s : State) (d : IoDir) :
    (s.setDir d).seq = s.seq := rfl
@[simp] theorem State.setDir_ret (s : State) (d : IoDir) :
    (s.setDir d).ret = s.ret := rfl
@[simp] theorem State.setDir_byteIdx (s : State) (d : IoDir) :
    (s.setDir d).byteIdx = s.byteIdx := rfl
@[simp] theorem State.setDir_ryPolls (s : State) (d : IoDir) :
    (s.setDir d).ryPolls = s.ryPolls := rfl
@[simp] theorem State.setDir_flags (s : State) (d : IoDir) :
    (s.setDir d).flags = s.flags := rfl
@[simp] theorem State.setDir_cmdq (s : State) (d : IoDir) :
    (s.setDir d).cmdq = s.cmdq := rfl
@[simp] theorem State.setDir_resq (s : State) (d : IoDir) :
    (s.setDir d).resq = s.resq := rfl
@[simp] theorem State.setDir_buf (s : State) (d : IoDir) :
    (s.setDir d).buf = s.buf := rfl
@[simp] theorem State.setDir_trace (s : State) (d : IoDir) :
    (s.setDir d).trace = s.trace ++ [.ioDir d] := rfl
@[simp] theorem State.setDir_control (s : State) (d : IoDir) :
    (s.setDir d).control = s.control := rfl
@[simp] theorem State.setDir_env (s : State) (d : IoDir) :
    (s.setDir d).env = s.env := rfl

/-! ### `State.setOut` -/

@[simp] theorem State.setOut_params (s : State) (b : Byte) :
    (s.setOut b).params = s.params := rfl
@[simp] theorem State.setOut_pinMap (s : State) (b : Byte) :
    (s.setOut b).pinMap = s.pinMap := rfl
@[simp] theorem State.setOut_driveStrength (s : State) (b : Byte) :
    (s.setOut b).driveStrength = s.driveStrength := rfl
@[simp] theorem State.setOut_pins (s : State) (b : Byte) :
    (s.setOut b).pins = { s.pins with ioOut := b } := rfl
@[simp] theorem State.setOut_pageCounter (s : State) (b : Byte) :
    (s.setOut b).pageCounter = s.pageCounter := rfl
@[simp] theorem State.setOut_bootId (s : State) (b : Byte) :
    (s.setOut b).bootId = s.bootId := rfl
@[simp] theorem State.setOut_bootIdValid (s : State) (b : Byte) :
    (s.setOut b).bootIdValid = s.bootIdValid := rfl
@[simp] theorem State.setOut_geom (s : State) (b : Byte) :
    (s.setOut b).geom = s.geom := rfl
@[simp] theorem State.setOut_curCmd (s : State) (b : Byte) :
    (s.setOut b).curCmd = s.curCmd := rfl
@[simp] theorem State.setOut_curRes (s : State) (b : Byte) :
    (s.setOut b).curRes = s.curRes := rfl
@[simp] theorem State.setOut_phase (s : State) (b : Byte) :
    (s.setOut b).phase = s.phase := rfl
@[simp] theorem State.setOut_wstate (s : State) (b : Byte) :
    (s.setOut b).wstate = s.wstate := rfl
@[simp] theorem State.setOut_seq (s : State) (b : Byte) :
    (s.setOut b).seq = s.seq := rfl
@[simp] theorem State.setOut_ret (s : State) (b : Byte) :
    (s.setOut b).ret = s.ret := rfl
@[simp] theorem State.setOut_byteIdx (s : State) (b : Byte) :
    (s.setOut b).byteIdx = s.byteIdx := rfl
@[simp] theorem State.setOut_ryPolls (s : State) (b : Byte) :
    (s.setOut b).ryPolls = s.ryPolls := rfl
@[simp] theorem State.setOut_flags (s : State) (b : Byte) :
    (s.setOut b).flags = s.flags := rfl
@[simp] theorem State.setOut_cmdq (s : State) (b : Byte) :
    (s.setOut b).cmdq = s.cmdq := rfl
@[simp] theorem State.setOut_resq (s : State) (b : Byte) :
    (s.setOut b).resq = s.resq := rfl
@[simp] theorem State.setOut_buf (s : State) (b : Byte) :
    (s.setOut b).buf = s.buf := rfl
@[simp] theorem State.setOut_trace (s : State) (b : Byte) :
    (s.setOut b).trace = s.trace ++ [.ioOut b] := rfl
@[simp] theorem State.setOut_control (s : State) (b : Byte) :
    (s.setOut b).control = s.control := rfl
@[simp] theorem State.setOut_env (s : State) (b : Byte) :
    (s.setOut b).env = s.env := rfl

/-! ### `State.goTo` -/

@[simp] theorem State.goTo_params (s : State) (f : Frame) (fs : List Frame) (l : Nat) :
    (s.goTo f fs l).params = s.params := rfl
@[simp] theorem State.goTo_pinMap (s : State) (f : Frame) (fs : List Frame) (l : Nat) :
    (s.goTo f fs l).pinMap = s.pinMap := rfl
@[simp] theorem State.goTo_driveStrength (s : State) (f : Frame) (fs : List Frame) (l : Nat) :
    (s.goTo f fs l).driveStrength = s.driveStrength := rfl
@[simp] theorem State.goTo_pins (s : State) (f : Frame) (fs : List Frame) (l : Nat) :
    (s.goTo f fs l).pins = s.pins := rfl
@[simp] theorem State.goTo_pageCounter (s : State) (f : Frame) (fs : List Frame) (l : Nat) :
    (s.goTo f fs l).pageCounter = s.pageCounter := rfl
@[simp] theorem State.goTo_bootId (s : State) (f : Frame) (fs : List Frame) (l : Nat) :
    (s.goTo f fs l).bootId = s.bootId := rfl
@[simp] theorem State.goTo_bootIdValid (s : State) (f : Frame) (fs : List Frame) (l : Nat) :
    (s.goTo f fs l).bootIdValid = s.bootIdValid := rfl
@[simp] theorem State.goTo_geom (s : State) (f : Frame) (fs : List Frame) (l : Nat) :
    (s.goTo f fs l).geom = s.geom := rfl
@[simp] theorem State.goTo_curCmd (s : State) (f : Frame) (fs : List Frame) (l : Nat) :
    (s.goTo f fs l).curCmd = s.curCmd := rfl
@[simp] theorem State.goTo_curRes (s : State) (f : Frame) (fs : List Frame) (l : Nat) :
    (s.goTo f fs l).curRes = s.curRes := rfl
@[simp] theorem State.goTo_phase (s : State) (f : Frame) (fs : List Frame) (l : Nat) :
    (s.goTo f fs l).phase = s.phase := rfl
@[simp] theorem State.goTo_wstate (s : State) (f : Frame) (fs : List Frame) (l : Nat) :
    (s.goTo f fs l).wstate = s.wstate := rfl
@[simp] theorem State.goTo_seq (s : State) (f : Frame) (fs : List Frame) (l : Nat) :
    (s.goTo f fs l).seq = settle ({ f with line := l } :: fs) := rfl
@[simp] theorem State.goTo_ret (s : State) (f : Frame) (fs : List Frame) (l : Nat) :
    (s.goTo f fs l).ret = s.ret := rfl
@[simp] theorem State.goTo_byteIdx (s : State) (f : Frame) (fs : List Frame) (l : Nat) :
    (s.goTo f fs l).byteIdx = s.byteIdx := rfl
@[simp] theorem State.goTo_ryPolls (s : State) (f : Frame) (fs : List Frame) (l : Nat) :
    (s.goTo f fs l).ryPolls = s.ryPolls := rfl
@[simp] theorem State.goTo_flags (s : State) (f : Frame) (fs : List Frame) (l : Nat) :
    (s.goTo f fs l).flags = s.flags := rfl
@[simp] theorem State.goTo_cmdq (s : State) (f : Frame) (fs : List Frame) (l : Nat) :
    (s.goTo f fs l).cmdq = s.cmdq := rfl
@[simp] theorem State.goTo_resq (s : State) (f : Frame) (fs : List Frame) (l : Nat) :
    (s.goTo f fs l).resq = s.resq := rfl
@[simp] theorem State.goTo_buf (s : State) (f : Frame) (fs : List Frame) (l : Nat) :
    (s.goTo f fs l).buf = s.buf := rfl
@[simp] theorem State.goTo_trace (s : State) (f : Frame) (fs : List Frame) (l : Nat) :
    (s.goTo f fs l).trace = s.trace := rfl
@[simp] theorem State.goTo_control (s : State) (f : Frame) (fs : List Frame) (l : Nat) :
    (s.goTo f fs l).control = s.control := rfl
@[simp] theorem State.goTo_env (s : State) (f : Frame) (fs : List Frame) (l : Nat) :
    (s.goTo f fs l).env = s.env := rfl

/-! ### `State.advance` -/

@[simp] theorem State.advance_params (s : State) (f : Frame) (fs : List Frame) :
    (s.advance f fs).params = s.params := rfl
@[simp] theorem State.advance_pinMap (s : State) (f : Frame) (fs : List Frame) :
    (s.advance f fs).pinMap = s.pinMap := rfl
@[simp] theorem State.advance_driveStrength (s : State) (f : Frame) (fs : List Frame) :
    (s.advance f fs).driveStrength = s.driveStrength := rfl
@[simp] theorem State.advance_pins (s : State) (f : Frame) (fs : List Frame) :
    (s.advance f fs).pins = s.pins := rfl
@[simp] theorem State.advance_pageCounter (s : State) (f : Frame) (fs : List Frame) :
    (s.advance f fs).pageCounter = s.pageCounter := rfl
@[simp] theorem State.advance_bootId (s : State) (f : Frame) (fs : List Frame) :
    (s.advance f fs).bootId = s.bootId := rfl
@[simp] theorem State.advance_bootIdValid (s : State) (f : Frame) (fs : List Frame) :
    (s.advance f fs).bootIdValid = s.bootIdValid := rfl
@[simp] theorem State.advance_geom (s : State) (f : Frame) (fs : List Frame) :
    (s.advance f fs).geom = s.geom := rfl
@[simp] theorem State.advance_curCmd (s : State) (f : Frame) (fs : List Frame) :
    (s.advance f fs).curCmd = s.curCmd := rfl
@[simp] theorem State.advance_curRes (s : State) (f : Frame) (fs : List Frame) :
    (s.advance f fs).curRes = s.curRes := rfl
@[simp] theorem State.advance_phase (s : State) (f : Frame) (fs : List Frame) :
    (s.advance f fs).phase = s.phase := rfl
@[simp] theorem State.advance_wstate (s : State) (f : Frame) (fs : List Frame) :
    (s.advance f fs).wstate = s.wstate := rfl
@[simp] theorem State.advance_seq (s : State) (f : Frame) (fs : List Frame) :
    (s.advance f fs).seq = settle ({ f with line := f.line + 1 } :: fs) := rfl
@[simp] theorem State.advance_ret (s : State) (f : Frame) (fs : List Frame) :
    (s.advance f fs).ret = s.ret := rfl
@[simp] theorem State.advance_byteIdx (s : State) (f : Frame) (fs : List Frame) :
    (s.advance f fs).byteIdx = s.byteIdx := rfl
@[simp] theorem State.advance_ryPolls (s : State) (f : Frame) (fs : List Frame) :
    (s.advance f fs).ryPolls = s.ryPolls := rfl
@[simp] theorem State.advance_flags (s : State) (f : Frame) (fs : List Frame) :
    (s.advance f fs).flags = s.flags := rfl
@[simp] theorem State.advance_cmdq (s : State) (f : Frame) (fs : List Frame) :
    (s.advance f fs).cmdq = s.cmdq := rfl
@[simp] theorem State.advance_resq (s : State) (f : Frame) (fs : List Frame) :
    (s.advance f fs).resq = s.resq := rfl
@[simp] theorem State.advance_buf (s : State) (f : Frame) (fs : List Frame) :
    (s.advance f fs).buf = s.buf := rfl
@[simp] theorem State.advance_trace (s : State) (f : Frame) (fs : List Frame) :
    (s.advance f fs).trace = s.trace := rfl
@[simp] theorem State.advance_control (s : State) (f : Frame) (fs : List Frame) :
    (s.advance f fs).control = s.control := rfl
@[simp] theorem State.advance_env (s : State) (f : Frame) (fs : List Frame) :
    (s.advance f fs).env = s.env := rfl

/-! ### `State.returnFrom` -/

@[simp] theorem State.returnFrom_params (s : State) (fs : List Frame) :
    (s.returnFrom fs).params = s.params := rfl
@[simp] theorem State.returnFrom_pinMap (s : State) (fs : List Frame) :
    (s.returnFrom fs).pinMap = s.pinMap := rfl
@[simp] theorem State.returnFrom_driveStrength (s : State) (fs : List Frame) :
    (s.returnFrom fs).driveStrength = s.driveStrength := rfl
@[simp] theorem State.returnFrom_pins (s : State) (fs : List Frame) :
    (s.returnFrom fs).pins = s.pins := rfl
@[simp] theorem State.returnFrom_pageCounter (s : State) (fs : List Frame) :
    (s.returnFrom fs).pageCounter = s.pageCounter := rfl
@[simp] theorem State.returnFrom_bootId (s : State) (fs : List Frame) :
    (s.returnFrom fs).bootId = s.bootId := rfl
@[simp] theorem State.returnFrom_bootIdValid (s : State) (fs : List Frame) :
    (s.returnFrom fs).bootIdValid = s.bootIdValid := rfl
@[simp] theorem State.returnFrom_geom (s : State) (fs : List Frame) :
    (s.returnFrom fs).geom = s.geom := rfl
@[simp] theorem State.returnFrom_curCmd (s : State) (fs : List Frame) :
    (s.returnFrom fs).curCmd = s.curCmd := rfl
@[simp] theorem State.returnFrom_curRes (s : State) (fs : List Frame) :
    (s.returnFrom fs).curRes = s.curRes := rfl
@[simp] theorem State.returnFrom_phase (s : State) (fs : List Frame) :
    (s.returnFrom fs).phase = s.phase := rfl
@[simp] theorem State.returnFrom_wstate (s : State) (fs : List Frame) :
    (s.returnFrom fs).wstate = s.wstate := rfl
@[simp] theorem State.returnFrom_seq (s : State) (fs : List Frame) :
    (s.returnFrom fs).seq = settle fs := rfl
@[simp] theorem State.returnFrom_ret (s : State) (fs : List Frame) :
    (s.returnFrom fs).ret = s.ret := rfl
@[simp] theorem State.returnFrom_byteIdx (s : State) (fs : List Frame) :
    (s.returnFrom fs).byteIdx = s.byteIdx := rfl
@[simp] theorem State.returnFrom_ryPolls (s : State) (fs : List Frame) :
    (s.returnFrom fs).ryPolls = s.ryPolls := rfl
@[simp] theorem State.returnFrom_flags (s : State) (fs : List Frame) :
    (s.returnFrom fs).flags = s.flags := rfl
@[simp] theorem State.returnFrom_cmdq (s : State) (fs : List Frame) :
    (s.returnFrom fs).cmdq = s.cmdq := rfl
@[simp] theorem State.returnFrom_resq (s : State) (fs : List Frame) :
    (s.returnFrom fs).resq = s.resq := rfl
@[simp] theorem State.returnFrom_buf (s : State) (fs : List Frame) :
    (s.returnFrom fs).buf = s.buf := rfl
@[simp] theorem State.returnFrom_trace (s : State) (fs : List Frame) :
    (s.returnFrom fs).trace = s.trace := rfl
@[simp] theorem State.returnFrom_control (s : State) (fs : List Frame) :
    (s.returnFrom fs).control = s.control := rfl
@[simp] theorem State.returnFrom_env (s : State) (fs : List Frame) :
    (s.returnFrom fs).env = s.env := rfl

/-! ### `State.finishCommand` -/

@[simp] theorem State.finishCommand_params (s : State) (w : Word) :
    (s.finishCommand w).params = s.params := rfl
@[simp] theorem State.finishCommand_pinMap (s : State) (w : Word) :
    (s.finishCommand w).pinMap = s.pinMap := rfl
@[simp] theorem State.finishCommand_driveStrength (s : State) (w : Word) :
    (s.finishCommand w).driveStrength = s.driveStrength := rfl
@[simp] theorem State.finishCommand_pins (s : State) (w : Word) :
    (s.finishCommand w).pins = s.pins := rfl
@[simp] theorem State.finishCommand_pageCounter (s : State) (w : Word) :
    (s.finishCommand w).pageCounter = s.pageCounter := rfl
@[simp] theorem State.finishCommand_bootId (s : State) (w : Word) :
    (s.finishCommand w).bootId = s.bootId := rfl
@[simp] theorem State.finishCommand_bootIdValid (s : State) (w : Word) :
    (s.finishCommand w).bootIdValid = s.bootIdValid := rfl
@[simp] theorem State.finishCommand_geom (s : State) (w : Word) :
    (s.finishCommand w).geom = s.geom := rfl
@[simp] theorem State.finishCommand_curCmd (s : State) (w : Word) :
    (s.finishCommand w).curCmd = s.curCmd := rfl
@[simp] theorem State.finishCommand_curRes (s : State) (w : Word) :
    (s.finishCommand w).curRes = w := rfl
@[simp] theorem State.finishCommand_phase (s : State) (w : Word) :
    (s.finishCommand w).phase = s.phase := rfl
@[simp] theorem State.finishCommand_wstate (s : State) (w : Word) :
    (s.finishCommand w).wstate = .publishResult := rfl
@[simp] theorem State.finishCommand_seq (s : State) (w : Word) :
    (s.finishCommand w).seq = s.seq := rfl
@[simp] theorem State.finishCommand_ret (s : State) (w : Word) :
    (s.finishCommand w).ret = s.ret := rfl
@[simp] theorem State.finishCommand_byteIdx (s : State) (w : Word) :
    (s.finishCommand w).byteIdx = s.byteIdx := rfl
@[simp] theorem State.finishCommand_ryPolls (s : State) (w : Word) :
    (s.finishCommand w).ryPolls = s.ryPolls := rfl
@[simp] theorem State.finishCommand_flags (s : State) (w : Word) :
    (s.finishCommand w).flags = s.flags := rfl
@[simp] theorem State.finishCommand_cmdq (s : State) (w : Word) :
    (s.finishCommand w).cmdq = s.cmdq := rfl
@[simp] theorem State.finishCommand_resq (s : State) (w : Word) :
    (s.finishCommand w).resq = s.resq := rfl
@[simp] theorem State.finishCommand_buf (s : State) (w : Word) :
    (s.finishCommand w).buf = s.buf := rfl
@[simp] theorem State.finishCommand_trace (s : State) (w : Word) :
    (s.finishCommand w).trace = s.trace := rfl
@[simp] theorem State.finishCommand_control (s : State) (w : Word) :
    (s.finishCommand w).control = s.control := rfl
@[simp] theorem State.finishCommand_env (s : State) (w : Word) :
    (s.finishCommand w).env = s.env := rfl

/-! ### `State.fail` -/

@[simp] theorem State.fail_params (s : State) :
    s.fail.params = s.params := rfl
@[simp] theorem State.fail_pinMap (s : State) :
    s.fail.pinMap = s.pinMap := rfl
@[simp] theorem State.fail_driveStrength (s : State) :
    s.fail.driveStrength = s.driveStrength := rfl
@[simp] theorem State.fail_pins (s : State) :
    s.fail.pins = s.pins := rfl
@[simp] theorem State.fail_pageCounter (s : State) :
    s.fail.pageCounter = s.pageCounter := rfl
@[simp] theorem State.fail_bootId (s : State) :
    s.fail.bootId = s.bootId := rfl
@[simp] theorem State.fail_bootIdValid (s : State) :
    s.fail.bootIdValid = s.bootIdValid := rfl
@[simp] theorem State.fail_geom (s : State) :
    s.fail.geom = s.geom := rfl
@[simp] theorem State.fail_curCmd (s : State) :
    s.fail.curCmd = s.curCmd := rfl
@[simp] theorem State.fail_curRes (s : State) :
    s.fail.curRes = 0x00000000#32 := rfl
@[simp] theorem State.fail_phase (s : State) :
    s.fail.phase = s.phase := rfl
@[simp] theorem State.fail_wstate (s : State) :
    s.fail.wstate = .publishResult := rfl
@[simp] theorem State.fail_seq (s : State) :
    s.fail.seq = s.seq := rfl
@[simp] theorem State.fail_ret (s : State) :
    s.fail.ret = s.ret := rfl
@[simp] theorem State.fail_byteIdx (s : State) :
    s.fail.byteIdx = s.byteIdx := rfl
@[simp] theorem State.fail_ryPolls (s : State) :
    s.fail.ryPolls = s.ryPolls := rfl
@[simp] theorem State.fail_flags (s : State) :
    s.fail.flags = s.flags := rfl
@[simp] theorem State.fail_cmdq (s : State) :
    s.fail.cmdq = s.cmdq := rfl
@[simp] theorem State.fail_resq (s : State) :
    s.fail.resq = s.resq := rfl
@[simp] theorem State.fail_buf (s : State) :
    s.fail.buf = s.buf := rfl
@[simp] theorem State.fail_trace (s : State) :
    s.fail.trace = s.trace := rfl
@[simp] theorem State.fail_control (s : State) :
    s.fail.control = s.control := rfl
@[simp] theorem State.fail_env (s : State) :
    s.fail.env = s.env := rfl

/-! ### `State.noOperation` -/

@[simp] theorem State.noOperation_params (s : State) :
    s.noOperation.params = s.params := rfl
@[simp] theorem State.noOperation_pinMap (s : State) :
    s.noOperation.pinMap = s.pinMap := rfl
@[simp] theorem State.noOperation_driveStrength (s : State) :
    s.noOperation.driveStrength = s.driveStrength := rfl
@[simp] theorem State.noOperation_pins (s : State) :
    s.noOperation.pins = s.pins := rfl
@[simp] theorem State.noOperation_pageCounter (s : State) :
    s.noOperation.pageCounter = s.pageCounter := rfl
@[simp] theorem State.noOperation_bootId (s : State) :
    s.noOperation.bootId = s.bootId := rfl
@[simp] theorem State.noOperation_bootIdValid (s : State) :
    s.noOperation.bootIdValid = s.bootIdValid := rfl
@[simp] theorem State.noOperation_geom (s : State) :
    s.noOperation.geom = s.geom := rfl
@[simp] theorem State.noOperation_curCmd (s : State) :
    s.noOperation.curCmd = s.curCmd := rfl
@[simp] theorem State.noOperation_curRes (s : State) :
    s.noOperation.curRes = 0x00000000#32 := rfl
@[simp] theorem State.noOperation_phase (s : State) :
    s.noOperation.phase = s.phase := rfl
@[simp] theorem State.noOperation_wstate (s : State) :
    s.noOperation.wstate = .publishResult := rfl
@[simp] theorem State.noOperation_seq (s : State) :
    s.noOperation.seq = s.seq := rfl
@[simp] theorem State.noOperation_ret (s : State) :
    s.noOperation.ret = s.ret := rfl
@[simp] theorem State.noOperation_byteIdx (s : State) :
    s.noOperation.byteIdx = s.byteIdx := rfl
@[simp] theorem State.noOperation_ryPolls (s : State) :
    s.noOperation.ryPolls = s.ryPolls := rfl
@[simp] theorem State.noOperation_flags (s : State) :
    s.noOperation.flags = s.flags := rfl
@[simp] theorem State.noOperation_cmdq (s : State) :
    s.noOperation.cmdq = s.cmdq := rfl
@[simp] theorem State.noOperation_resq (s : State) :
    s.noOperation.resq = s.resq := rfl
@[simp] theorem State.noOperation_buf (s : State) :
    s.noOperation.buf = s.buf := rfl
@[simp] theorem State.noOperation_trace (s : State) :
    s.noOperation.trace = s.trace := rfl
@[simp] theorem State.noOperation_control (s : State) :
    s.noOperation.control = s.control := rfl
@[simp] theorem State.noOperation_env (s : State) :
    s.noOperation.env = s.env := rfl

/-! ### `State.setPos` -/

@[simp] theorem State.setPos_params (s : State) (p : CtlPos) :
    (s.setPos p).params = s.params := rfl
@[simp] theorem State.setPos_pinMap (s : State) (p : CtlPos) :
    (s.setPos p).pinMap = s.pinMap := rfl
@[simp] theorem State.setPos_driveStrength (s : State) (p : CtlPos) :
    (s.setPos p).driveStrength = s.driveStrength := rfl
@[simp] theorem State.setPos_pins (s : State) (p : CtlPos) :
    (s.setPos p).pins = s.pins := rfl
@[simp] theorem State.setPos_pageCounter (s : State) (p : CtlPos) :
    (s.setPos p).pageCounter = s.pageCounter := rfl
@[simp] theorem State.setPos_bootId (s : State) (p : CtlPos) :
    (s.setPos p).bootId = s.bootId := rfl
@[simp] theorem State.setPos_bootIdValid (s : State) (p : CtlPos) :
    (s.setPos p).bootIdValid = s.bootIdValid := rfl
@[simp] theorem State.setPos_geom (s : State) (p : CtlPos) :
    (s.setPos p).geom = s.geom := rfl
@[simp] theorem State.setPos_curCmd (s : State) (p : CtlPos) :
    (s.setPos p).curCmd = s.curCmd := rfl
@[simp] theorem State.setPos_curRes (s : State) (p : CtlPos) :
    (s.setPos p).curRes = s.curRes := rfl
@[simp] theorem State.setPos_phase (s : State) (p : CtlPos) :
    (s.setPos p).phase = s.phase := rfl
@[simp] theorem State.setPos_wstate (s : State) (p : CtlPos) :
    (s.setPos p).wstate = s.wstate := rfl
@[simp] theorem State.setPos_seq (s : State) (p : CtlPos) :
    (s.setPos p).seq = s.seq := rfl
@[simp] theorem State.setPos_ret (s : State) (p : CtlPos) :
    (s.setPos p).ret = s.ret := rfl
@[simp] theorem State.setPos_byteIdx (s : State) (p : CtlPos) :
    (s.setPos p).byteIdx = s.byteIdx := rfl
@[simp] theorem State.setPos_ryPolls (s : State) (p : CtlPos) :
    (s.setPos p).ryPolls = s.ryPolls := rfl
@[simp] theorem State.setPos_flags (s : State) (p : CtlPos) :
    (s.setPos p).flags = s.flags := rfl
@[simp] theorem State.setPos_cmdq (s : State) (p : CtlPos) :
    (s.setPos p).cmdq = s.cmdq := rfl
@[simp] theorem State.setPos_resq (s : State) (p : CtlPos) :
    (s.setPos p).resq = s.resq := rfl
@[simp] theorem State.setPos_buf (s : State) (p : CtlPos) :
    (s.setPos p).buf = s.buf := rfl
@[simp] theorem State.setPos_trace (s : State) (p : CtlPos) :
    (s.setPos p).trace = s.trace := rfl
@[simp] theorem State.setPos_control (s : State) (p : CtlPos) :
    (s.setPos p).control = { s.control with pos := p } := rfl
@[simp] theorem State.setPos_env (s : State) (p : CtlPos) :
    (s.setPos p).env = s.env := rfl

/-! ### `State.report` -/

@[simp] theorem State.report_params (s : State) (r : Report) :
    (s.report r).params = s.params := rfl
@[simp] theorem State.report_pinMap (s : State) (r : Report) :
    (s.report r).pinMap = s.pinMap := rfl
@[simp] theorem State.report_driveStrength (s : State) (r : Report) :
    (s.report r).driveStrength = s.driveStrength := rfl
@[simp] theorem State.report_pins (s : State) (r : Report) :
    (s.report r).pins = s.pins := rfl
@[simp] theorem State.report_pageCounter (s : State) (r : Report) :
    (s.report r).pageCounter = s.pageCounter := rfl
@[simp] theorem State.report_bootId (s : State) (r : Report) :
    (s.report r).bootId = s.bootId := rfl
@[simp] theorem State.report_bootIdValid (s : State) (r : Report) :
    (s.report r).bootIdValid = s.bootIdValid := rfl
@[simp] theorem State.report_geom (s : State) (r : Report) :
    (s.report r).geom = s.geom := rfl
@[simp] theorem State.report_curCmd (s : State) (r : Report) :
    (s.report r).curCmd = s.curCmd := rfl
@[simp] theorem State.report_curRes (s : State) (r : Report) :
    (s.report r).curRes = s.curRes := rfl
@[simp] theorem State.report_phase (s : State) (r : Report) :
    (s.report r).phase = s.phase := rfl
@[simp] theorem State.report_wstate (s : State) (r : Report) :
    (s.report r).wstate = s.wstate := rfl
@[simp] theorem State.report_seq (s : State) (r : Report) :
    (s.report r).seq = s.seq := rfl
@[simp] theorem State.report_ret (s : State) (r : Report) :
    (s.report r).ret = s.ret := rfl
@[simp] theorem State.report_byteIdx (s : State) (r : Report) :
    (s.report r).byteIdx = s.byteIdx := rfl
@[simp] theorem State.report_ryPolls (s : State) (r : Report) :
    (s.report r).ryPolls = s.ryPolls := rfl
@[simp] theorem State.report_flags (s : State) (r : Report) :
    (s.report r).flags = s.flags := rfl
@[simp] theorem State.report_cmdq (s : State) (r : Report) :
    (s.report r).cmdq = s.cmdq := rfl
@[simp] theorem State.report_resq (s : State) (r : Report) :
    (s.report r).resq = s.resq := rfl
@[simp] theorem State.report_buf (s : State) (r : Report) :
    (s.report r).buf = s.buf := rfl
@[simp] theorem State.report_trace (s : State) (r : Report) :
    (s.report r).trace = s.trace := rfl
@[simp] theorem State.report_control (s : State) (r : Report) :
    (s.report r).control = { s.control with reports := s.control.reports ++ [r] } := rfl
@[simp] theorem State.report_env (s : State) (r : Report) :
    (s.report r).env = s.env := rfl

/-! ### `State.respond` -/

@[simp] theorem State.respond_params (s : State) (t : Txn) (r : Response) :
    (s.respond t r).params = s.params := rfl
@[simp] theorem State.respond_pinMap (s : State) (t : Txn) (r : Response) :
    (s.respond t r).pinMap = s.pinMap := rfl
@[simp] theorem State.respond_driveStrength (s : State) (t : Txn) (r : Response) :
    (s.respond t r).driveStrength = s.driveStrength := rfl
@[simp] theorem State.respond_pins (s : State) (t : Txn) (r : Response) :
    (s.respond t r).pins = s.pins := rfl
@[simp] theorem State.respond_pageCounter (s : State) (t : Txn) (r : Response) :
    (s.respond t r).pageCounter = s.pageCounter := rfl
@[simp] theorem State.respond_bootId (s : State) (t : Txn) (r : Response) :
    (s.respond t r).bootId = s.bootId := rfl
@[simp] theorem State.respond_bootIdValid (s : State) (t : Txn) (r : Response) :
    (s.respond t r).bootIdValid = s.bootIdValid := rfl
@[simp] theorem State.respond_geom (s : State) (t : Txn) (r : Response) :
    (s.respond t r).geom = s.geom := rfl
@[simp] theorem State.respond_curCmd (s : State) (t : Txn) (r : Response) :
    (s.respond t r).curCmd = s.curCmd := rfl
@[simp] theorem State.respond_curRes (s : State) (t : Txn) (r : Response) :
    (s.respond t r).curRes = s.curRes := rfl
@[simp] theorem State.respond_phase (s : State) (t : Txn) (r : Response) :
    (s.respond t r).phase = s.phase := rfl
@[simp] theorem State.respond_wstate (s : State) (t : Txn) (r : Response) :
    (s.respond t r).wstate = s.wstate := rfl
@[simp] theorem State.respond_seq (s : State) (t : Txn) (r : Response) :
    (s.respond t r).seq = s.seq := rfl
@[simp] theorem State.respond_ret (s : State) (t : Txn) (r : Response) :
    (s.respond t r).ret = s.ret := rfl
@[simp] theorem State.respond_byteIdx (s : State) (t : Txn) (r : Response) :
    (s.respond t r).byteIdx = s.byteIdx := rfl
@[simp] theorem State.respond_ryPolls (s : State) (t : Txn) (r : Response) :
    (s.respond t r).ryPolls = s.ryPolls := rfl
@[simp] theorem State.respond_flags (s : State) (t : Txn) (r : Response) :
    (s.respond t r).flags = s.flags := rfl
@[simp] theorem State.respond_cmdq (s : State) (t : Txn) (r : Response) :
    (s.respond t r).cmdq = s.cmdq := rfl
@[simp] theorem State.respond_resq (s : State) (t : Txn) (r : Response) :
    (s.respond t r).resq = s.resq := rfl
@[simp] theorem State.respond_buf (s : State) (t : Txn) (r : Response) :
    (s.respond t r).buf = s.buf := rfl
@[simp] theorem State.respond_trace (s : State) (t : Txn) (r : Response) :
    (s.respond t r).trace = s.trace := rfl
@[simp] theorem State.respond_control (s : State) (t : Txn) (r : Response) :
    (s.respond t r).control = { s.control with responses := s.control.responses ++ [(t, r)] } := rfl
@[simp] theorem State.respond_env (s : State) (t : Txn) (r : Response) :
    (s.respond t r).env = s.env := rfl

/-! ### `State.receive` -/

@[simp] theorem State.receive_params (s : State) (b : Byte) :
    (s.receive b).params = s.params := rfl
@[simp] theorem State.receive_pinMap (s : State) (b : Byte) :
    (s.receive b).pinMap = s.pinMap := rfl
@[simp] theorem State.receive_driveStrength (s : State) (b : Byte) :
    (s.receive b).driveStrength = s.driveStrength := rfl
@[simp] theorem State.receive_pins (s : State) (b : Byte) :
    (s.receive b).pins = s.pins := rfl
@[simp] theorem State.receive_pageCounter (s : State) (b : Byte) :
    (s.receive b).pageCounter = s.pageCounter := rfl
@[simp] theorem State.receive_bootId (s : State) (b : Byte) :
    (s.receive b).bootId = s.bootId := rfl
@[simp] theorem State.receive_bootIdValid (s : State) (b : Byte) :
    (s.receive b).bootIdValid = s.bootIdValid := rfl
@[simp] theorem State.receive_geom (s : State) (b : Byte) :
    (s.receive b).geom = s.geom := rfl
@[simp] theorem State.receive_curCmd (s : State) (b : Byte) :
    (s.receive b).curCmd = s.curCmd := rfl
@[simp] theorem State.receive_curRes (s : State) (b : Byte) :
    (s.receive b).curRes = s.curRes := rfl
@[simp] theorem State.receive_phase (s : State) (b : Byte) :
    (s.receive b).phase = s.phase := rfl
@[simp] theorem State.receive_wstate (s : State) (b : Byte) :
    (s.receive b).wstate = s.wstate := rfl
@[simp] theorem State.receive_seq (s : State) (b : Byte) :
    (s.receive b).seq = s.seq := rfl
@[simp] theorem State.receive_ret (s : State) (b : Byte) :
    (s.receive b).ret = s.ret := rfl
@[simp] theorem State.receive_byteIdx (s : State) (b : Byte) :
    (s.receive b).byteIdx = s.byteIdx := rfl
@[simp] theorem State.receive_ryPolls (s : State) (b : Byte) :
    (s.receive b).ryPolls = s.ryPolls := rfl
@[simp] theorem State.receive_flags (s : State) (b : Byte) :
    (s.receive b).flags = s.flags := rfl
@[simp] theorem State.receive_cmdq (s : State) (b : Byte) :
    (s.receive b).cmdq = s.cmdq := rfl
@[simp] theorem State.receive_resq (s : State) (b : Byte) :
    (s.receive b).resq = s.resq := rfl
@[simp] theorem State.receive_buf (s : State) (b : Byte) :
    (s.receive b).buf = s.buf := rfl
@[simp] theorem State.receive_trace (s : State) (b : Byte) :
    (s.receive b).trace = s.trace := rfl
@[simp] theorem State.receive_control (s : State) (b : Byte) :
    (s.receive b).control = { s.control with serialIn := s.control.serialIn ++ [b] } := rfl
@[simp] theorem State.receive_env (s : State) (b : Byte) :
    (s.receive b).env = s.env := rfl

/-! ### `Pins.set` -/

@[simp] theorem Pins.set_cle_cle (p : Pins) (v : Level) : (p.set .cle v).cle = v := rfl
@[simp] theorem Pins.set_cle_ale (p : Pins) (v : Level) : (p.set .cle v).ale = p.ale := rfl
@[simp] theorem Pins.set_cle_cen (p : Pins) (v : Level) : (p.set .cle v).cen = p.cen := rfl
@[simp] theorem Pins.set_cle_ren (p : Pins) (v : Level) : (p.set .cle v).ren = p.ren := rfl
@[simp] theorem Pins.set_cle_wen (p : Pins) (v : Level) : (p.set .cle v).wen = p.wen := rfl
@[simp] theorem Pins.set_cle_wpn (p : Pins) (v : Level) : (p.set .cle v).wpn = p.wpn := rfl
@[simp] theorem Pins.set_cle_ioDir (p : Pins) (v : Level) : (p.set .cle v).ioDir = p.ioDir := rfl
@[simp] theorem Pins.set_cle_ioOut (p : Pins) (v : Level) : (p.set .cle v).ioOut = p.ioOut := rfl
@[simp] theorem Pins.set_ale_cle (p : Pins) (v : Level) : (p.set .ale v).cle = p.cle := rfl
@[simp] theorem Pins.set_ale_ale (p : Pins) (v : Level) : (p.set .ale v).ale = v := rfl
@[simp] theorem Pins.set_ale_cen (p : Pins) (v : Level) : (p.set .ale v).cen = p.cen := rfl
@[simp] theorem Pins.set_ale_ren (p : Pins) (v : Level) : (p.set .ale v).ren = p.ren := rfl
@[simp] theorem Pins.set_ale_wen (p : Pins) (v : Level) : (p.set .ale v).wen = p.wen := rfl
@[simp] theorem Pins.set_ale_wpn (p : Pins) (v : Level) : (p.set .ale v).wpn = p.wpn := rfl
@[simp] theorem Pins.set_ale_ioDir (p : Pins) (v : Level) : (p.set .ale v).ioDir = p.ioDir := rfl
@[simp] theorem Pins.set_ale_ioOut (p : Pins) (v : Level) : (p.set .ale v).ioOut = p.ioOut := rfl
@[simp] theorem Pins.set_cen_cle (p : Pins) (v : Level) : (p.set .cen v).cle = p.cle := rfl
@[simp] theorem Pins.set_cen_ale (p : Pins) (v : Level) : (p.set .cen v).ale = p.ale := rfl
@[simp] theorem Pins.set_cen_cen (p : Pins) (v : Level) : (p.set .cen v).cen = v := rfl
@[simp] theorem Pins.set_cen_ren (p : Pins) (v : Level) : (p.set .cen v).ren = p.ren := rfl
@[simp] theorem Pins.set_cen_wen (p : Pins) (v : Level) : (p.set .cen v).wen = p.wen := rfl
@[simp] theorem Pins.set_cen_wpn (p : Pins) (v : Level) : (p.set .cen v).wpn = p.wpn := rfl
@[simp] theorem Pins.set_cen_ioDir (p : Pins) (v : Level) : (p.set .cen v).ioDir = p.ioDir := rfl
@[simp] theorem Pins.set_cen_ioOut (p : Pins) (v : Level) : (p.set .cen v).ioOut = p.ioOut := rfl
@[simp] theorem Pins.set_ren_cle (p : Pins) (v : Level) : (p.set .ren v).cle = p.cle := rfl
@[simp] theorem Pins.set_ren_ale (p : Pins) (v : Level) : (p.set .ren v).ale = p.ale := rfl
@[simp] theorem Pins.set_ren_cen (p : Pins) (v : Level) : (p.set .ren v).cen = p.cen := rfl
@[simp] theorem Pins.set_ren_ren (p : Pins) (v : Level) : (p.set .ren v).ren = v := rfl
@[simp] theorem Pins.set_ren_wen (p : Pins) (v : Level) : (p.set .ren v).wen = p.wen := rfl
@[simp] theorem Pins.set_ren_wpn (p : Pins) (v : Level) : (p.set .ren v).wpn = p.wpn := rfl
@[simp] theorem Pins.set_ren_ioDir (p : Pins) (v : Level) : (p.set .ren v).ioDir = p.ioDir := rfl
@[simp] theorem Pins.set_ren_ioOut (p : Pins) (v : Level) : (p.set .ren v).ioOut = p.ioOut := rfl
@[simp] theorem Pins.set_wen_cle (p : Pins) (v : Level) : (p.set .wen v).cle = p.cle := rfl
@[simp] theorem Pins.set_wen_ale (p : Pins) (v : Level) : (p.set .wen v).ale = p.ale := rfl
@[simp] theorem Pins.set_wen_cen (p : Pins) (v : Level) : (p.set .wen v).cen = p.cen := rfl
@[simp] theorem Pins.set_wen_ren (p : Pins) (v : Level) : (p.set .wen v).ren = p.ren := rfl
@[simp] theorem Pins.set_wen_wen (p : Pins) (v : Level) : (p.set .wen v).wen = v := rfl
@[simp] theorem Pins.set_wen_wpn (p : Pins) (v : Level) : (p.set .wen v).wpn = p.wpn := rfl
@[simp] theorem Pins.set_wen_ioDir (p : Pins) (v : Level) : (p.set .wen v).ioDir = p.ioDir := rfl
@[simp] theorem Pins.set_wen_ioOut (p : Pins) (v : Level) : (p.set .wen v).ioOut = p.ioOut := rfl
@[simp] theorem Pins.set_wpn_cle (p : Pins) (v : Level) : (p.set .wpn v).cle = p.cle := rfl
@[simp] theorem Pins.set_wpn_ale (p : Pins) (v : Level) : (p.set .wpn v).ale = p.ale := rfl
@[simp] theorem Pins.set_wpn_cen (p : Pins) (v : Level) : (p.set .wpn v).cen = p.cen := rfl
@[simp] theorem Pins.set_wpn_ren (p : Pins) (v : Level) : (p.set .wpn v).ren = p.ren := rfl
@[simp] theorem Pins.set_wpn_wen (p : Pins) (v : Level) : (p.set .wpn v).wen = p.wen := rfl
@[simp] theorem Pins.set_wpn_wpn (p : Pins) (v : Level) : (p.set .wpn v).wpn = v := rfl
@[simp] theorem Pins.set_wpn_ioDir (p : Pins) (v : Level) : (p.set .wpn v).ioDir = p.ioDir := rfl
@[simp] theorem Pins.set_wpn_ioOut (p : Pins) (v : Level) : (p.set .wpn v).ioOut = p.ioOut := rfl

end Sys2Proof.Machine
end

