-- ==== Sys2Proof/Laws/Ops.lean ====
section
/-! SUPPORT. One lemma for each shared operation of Machine/Ops.lean, Machine/Sequencer.lean and Machine/Serial.lean that
says once everything the operation can do, so that later proofs cite it and never unfold it. -/

namespace Sys2Proof.Machine

/-! ### The queues -/

theorem enq_room (depth : Nat) (q : List Word) (w : Word) (h : q.length < depth) : enq depth q w = some (q ++ [w]) := by
  simp [enq, h]

theorem enq_full (depth : Nat) (q : List Word) (w : Word) (h : depth ≤ q.length) : enq depth q w = none := by
  simp [enq, Nat.not_lt.mpr h]

/-- `Enq` appends where there is room and holds where there is none (R70). -/
theorem enq_cases (depth : Nat) (q : List Word) (w : Word) :
    (q.length < depth ∧ enq depth q w = some (q ++ [w])) ∨ (depth ≤ q.length ∧ enq depth q w = none) := by
  rcases Nat.lt_or_ge q.length depth with h | h
  · exact .inl ⟨h, enq_room depth q w h⟩
  · exact .inr ⟨h, enq_full depth q w h⟩

@[simp] theorem deq_cons (w : Word) (q : List Word) : deq (w :: q) = some (w, q) := rfl
@[simp] theorem deq_nil : deq [] = none := rfl

/-! ### The worker loop -/

/-- WaitForCommand dequeues, or holds (R160, R71). -/
theorem State.takeCommand_cases (s : State) :
    (s.cmdq = [] ∧ s.takeCommand = s) ∨
      ∃ w q, s.cmdq = w :: q ∧
        s.takeCommand = { s with cmdq := q, curCmd := Command.ofWord w, wstate := .execute } := by
  rcases h : s.cmdq with _ | ⟨w, q⟩
  · exact .inl ⟨rfl, by simp [State.takeCommand, h]⟩
  · exact .inr ⟨w, q, rfl, by simp [State.takeCommand, h]⟩

/-- PublishResult enqueues the result, or holds (R160, R70); the dead registers take free values. -/
theorem State.publish_cases (s : State) :
    (s.params.resqDepth ≤ s.resq.length ∧ s.publish = s) ∨
      (s.resq.length < s.params.resqDepth ∧ s.publish =
        { s with
          resq := s.resq ++ [s.curRes], wstate := .waitForCommand
          curCmd := Command.ofWord (Config.freeWord s.env.freeIndex)
          curRes := Config.freeWord (s.env.freeIndex + 1)
          env := { s.env with freeIndex := s.env.freeIndex + 1 + 1 } }) := by
  rcases enq_cases s.params.resqDepth s.resq s.curRes with ⟨h, e⟩ | ⟨h, e⟩
  · exact .inr ⟨h, by simp [State.publish, e, Env.word]⟩
  · exact .inl ⟨h, by simp [State.publish, e]⟩

/-- The end of the startup sequence: HALTED with any ERR flag set, else RUN (R216, R242 line 7). -/
theorem State.endStartup_cases (s : State) :
    (s.flags.anyError = true ∧ s.endStartup = { s with phase := .halted }) ∨
      (s.flags.anyError = false ∧ s.endStartup = { s with phase := .run, wstate := .waitForCommand }) := by
  rcases h : s.flags.anyError
  · exact .inr ⟨rfl, by simp [State.endStartup, h]⟩
  · exact .inl ⟨rfl, by simp [State.endStartup, h]⟩

/-! ### The environment's answers -/

@[simp] theorem Env.ry_cons (e : Env) (v : Level) (vs : List Level) (h : e.ryIn = v :: vs) :
    e.ry = (v, { e with ryIn := vs }) := by
  simp [Env.ry, h]

@[simp] theorem Env.sample_cons (e : Env) (b : Byte) (bs : List Byte) (h : e.sampleIn = b :: bs) :
    e.sample = (b, { e with sampleIn := bs }) := by
  simp [Env.sample, h]

/-- A poll takes one answer of RY and leaves the schedule and the chip's bytes alone. -/
theorem Env.ry_keeps (e : Env) : e.ry.2.inputs = e.inputs ∧ e.ry.2.sampleIn = e.sampleIn := by
  unfold Env.ry; split <;> exact ⟨rfl, rfl⟩

/-- A sample takes one byte and leaves the schedule and the answers of RY alone. -/
theorem Env.sample_keeps (e : Env) : e.sample.2.inputs = e.inputs ∧ e.sample.2.ryIn = e.ryIn := by
  unfold Env.sample; split <;> exact ⟨rfl, rfl⟩

/-! ### Stores -/

/-- A store goes to BUF below BUF_SIZE or to BOOT_ID below 5, and nowhere else (R126 line 10d). -/
theorem State.storeByte_cases (s t : State) (d : Dest) (b : Byte) (h : s.storeByte d b = some t) :
    (d = .buf ∧ s.byteIdx < s.params.bufSize ∧ t = { s with buf := s.buf.write s.byteIdx b }) ∨
      (d = .bootId ∧ s.byteIdx < 5 ∧ t = { s with bootId := s.bootId.set s.byteIdx b }) := by
  cases d <;> simp only [State.storeByte] at h <;> split at h <;> cases h
  · exact .inl ⟨rfl, ‹_›, rfl⟩
  · exact .inr ⟨rfl, ‹_›, rfl⟩

/-! ### The control port -/

/-- A transaction that completes changes nothing, or appends to CMDQ, or removes the head of RESQ (R42, R43, R64). -/
theorem portAccess_cases (t : Txn) (s s' : State) (r : Response) (h : portAccess t s = some (r, s')) :
    s' = s ∨
      (∃ v, t = .regWrite 0x00 v ∧ r = .written ∧ s.cmdq.length < s.params.cmdqDepth ∧
        s' = { s with cmdq := s.cmdq ++ [v] }) ∨
      (∃ w q, t = .regRead 0x04 ∧ r = .word w ∧ s.resq = w :: q ∧ s' = { s with resq := q }) := by
  cases t with
  | regWrite off v =>
    simp only [portAccess] at h
    split at h
    · rename_i e
      rcases enq_cases s.params.cmdqDepth s.cmdq v with ⟨hl, he⟩ | ⟨_, he⟩
      · simp only [he, Option.map_some, Option.some.injEq, Prod.mk.injEq] at h
        exact .inr (.inl ⟨v, by rw [e], h.1.symm, hl, h.2.symm⟩)
      · simp [he] at h
    · split at h <;> cases h <;> exact .inl rfl
  | regRead off =>
    simp only [portAccess] at h
    split at h
    · rename_i e
      rcases hq : s.resq with _ | ⟨w, q⟩
      · simp [hq] at h
      · simp only [hq, deq_cons, Option.map_some, Option.some.injEq, Prod.mk.injEq] at h
        exact .inr (.inr ⟨w, q, by rw [e], h.1.symm, rfl, h.2.symm⟩)
    · split at h <;> cases h <;> exact .inl rfl
  | bufRead i =>
    simp only [portAccess] at h
    split at h <;> cases h <;> exact .inl rfl

/-- A transaction holds only as a push into a full CMDQ or a pop of an empty RESQ (R40, R42, R43). -/
theorem portAccess_holds (t : Txn) (s : State) (h : portAccess t s = none) :
    (∃ v, t = .regWrite 0x00 v ∧ s.params.cmdqDepth ≤ s.cmdq.length) ∨ (t = .regRead 0x04 ∧ s.resq = []) := by
  cases t with
  | regWrite off v =>
    simp only [portAccess] at h
    split at h
    · rename_i e
      rcases enq_cases s.params.cmdqDepth s.cmdq v with ⟨_, he⟩ | ⟨hl, _⟩
      · simp [he] at h
      · exact .inl ⟨v, by rw [e], hl⟩
    · split at h <;> cases h
  | regRead off =>
    simp only [portAccess] at h
    split at h
    · rename_i e
      rcases hq : s.resq with _ | ⟨w, q⟩
      · exact .inr ⟨by rw [e], rfl⟩
      · simp [hq] at h
    · split at h <;> cases h
  | bufRead i =>
    simp only [portAccess] at h
    split at h <;> cases h

/-- A transaction that completes leaves all but the two queues alone (R60). -/
theorem portAccess_frame (t : Txn) (s s' : State) (r : Response) (h : portAccess t s = some (r, s')) :
    s' = { s with cmdq := s'.cmdq, resq := s'.resq } := by
  rcases portAccess_cases t s s' r h with e | ⟨_, _, _, _, e⟩ | ⟨_, _, _, _, _, e⟩ <;> rw [e]

/-- A transaction that completes leaves the control side alone but for the recorded response, and holds as `portAccess`
does. -/
theorem State.transact_cases (s : State) (t : Txn) :
    (portAccess t s = none ∧ s.transact t = none) ∨
      ∃ r s', portAccess t s = some (r, s') ∧ s.transact t = some (r, s'.respond t r) := by
  rcases h : portAccess t s with _ | ⟨r, s'⟩
  · exact .inl ⟨rfl, by simp [State.transact, h]⟩
  · exact .inr ⟨r, s', rfl, by simp [State.transact, h]⟩

/-- A transaction of C that completes touches the two queues and the history of responses, and nothing else (R60). -/
theorem State.transact_frame (s s' : State) (t : Txn) (r : Response) (h : s.transact t = some (r, s')) :
    s' = { s with
      cmdq := s'.cmdq, resq := s'.resq
      control := { s.control with responses := s.control.responses ++ [(t, r)] } } := by
  rcases s.transact_cases t with ⟨_, e⟩ | ⟨r', u, hu, e⟩ <;> rw [e] at h
  · cases h
  · cases h
    rw [portAccess_frame _ _ _ _ hu]
    rfl

/-! ### The control side -/

/-- Serving a host byte ends at the idle position, with the reports appended and the displayed page counter free. -/
theorem State.finishByte_eq (s : State) (rs : List Report) :
    s.finishByte rs =
      { s with
        control := { s.control with
          pos := .idle, shownPage := Config.freeWord s.env.freeIndex, reports := s.control.reports ++ rs }
        env := { s.env with freeIndex := s.env.freeIndex + 1 } } := rfl

/-- One step of an exchange touches the two queues, the control side and the count of free values, and nothing else
(R60, R190). -/
theorem State.exchange_frame (s : State) (i : Instr) (w : Word) (accept : Int → Bool)
    (payload : Option (List Byte → Report)) :
    ∃ (cq rq : List Word) (c : Control) (n : Nat),
      s.exchange i w accept payload =
        { s with cmdq := cq, resq := rq, control := c, env := { s.env with freeIndex := n } } := by
  unfold State.exchange
  split
  · split
    · rename_i r s' h
      rw [State.transact_frame _ _ _ _ h]; exact ⟨_, _, _, _, rfl⟩
    · exact ⟨_, _, _, _, rfl⟩
  · split
    · rename_i r s' h
      rw [State.transact_frame _ _ _ _ h]
      split
      · split <;> exact ⟨_, _, _, _, rfl⟩
      · exact ⟨_, _, _, _, rfl⟩
    · exact ⟨_, _, _, _, rfl⟩
  · split
    · rename_i b s' rep h
      rw [State.transact_frame _ _ _ _ h]
      split <;> exact ⟨_, _, _, _, rfl⟩
    · rename_i r s' h _
      rw [State.transact_frame _ _ _ _ h]; exact ⟨_, _, _, _, rfl⟩
    · exact ⟨_, _, _, _, rfl⟩

/-- A control side's transaction touches the two queues and the control side, and nothing else. -/
theorem State.perform_frame (s : State) (t : Txn) :
    ∃ (cq rq : List Word) (c : Control), s.perform t = { s with cmdq := cq, resq := rq, control := c } := by
  unfold State.perform
  split
  · rename_i r s' h
    rw [State.transact_frame _ _ _ _ h]; exact ⟨_, _, _, rfl⟩
  · exact ⟨_, _, _, rfl⟩

/-! ### The sequencer -/

/-- After a poll the sequencer goes on, polls again, or gives up; only `seq`, `ry_polls` and the return value change
(R126 line 8). -/
theorem State.afterPoll_cases (s : State) (f : Frame) (fs : List Frame) (v : Level) :
    (v = true ∧ s.afterPoll f fs v = s.advance f fs) ∨
      (v = false ∧ s.params.ryTimeout = some (s.ryPolls + 1) ∧
        s.afterPoll f fs v = { s with ryPolls := s.ryPolls + 1, ret := .notReady, seq := settle fs }) ∨
      (v = false ∧ s.params.ryTimeout ≠ some (s.ryPolls + 1) ∧
        s.afterPoll f fs v = { s with ryPolls := s.ryPolls + 1 }) := by
  cases v
  · by_cases h : s.params.ryTimeout = some (s.ryPolls + 1)
    · exact .inr (.inl ⟨rfl, h, by simp [State.afterPoll, h, State.returnFrom]⟩)
    · exact .inr (.inr ⟨rfl, h, by simp [State.afterPoll, h]⟩)
  · exact .inl ⟨rfl, rfl⟩

/-- What no line of any operation changes: the parameters and the configuration, CUR_CMD, both queues, the control side
and the schedule (R60, R174). -/
theorem runMicro_keeps (m : Micro) (f : Frame) (fs : List Frame) (s t : State) (h : runMicro m f fs s = .next t) :
    t.params = s.params ∧ t.pinMap = s.pinMap ∧ t.driveStrength = s.driveStrength ∧ t.curCmd = s.curCmd ∧
      t.cmdq = s.cmdq ∧ t.resq = s.resq ∧ t.control = s.control ∧ t.env.inputs = s.env.inputs := by
  cases m <;> simp only [runMicro] at h
  case poll =>
    cases h
    have := Env.ry_keeps s.env
    rcases State.afterPoll_cases (({ s with env := s.env.ry.2 } : State).emit (.ry s.env.ry.1)) f fs s.env.ry.1 with
      ⟨_, e⟩ | ⟨_, _, e⟩ | ⟨_, _, e⟩ <;> rw [e] <;> simp [this]
  case sampleStore d =>
    split at h
    · rename_i s' hs
      cases h
      have := Env.sample_keeps s.env
      rcases State.storeByte_cases _ _ _ _ hs with ⟨_, _, e⟩ | ⟨_, _, e⟩ <;> subst e <;> simp [this]
    · cases h
  case endStartup =>
    cases h
    rcases State.endStartup_cases s with ⟨_, e⟩ | ⟨_, e⟩ <;> simp [e]
  all_goals first
    | (cases h; simp)
    | (split at h <;> first
        | cases h; done
        | (cases h; simp)
        | (split at h <;> cases h; all_goals simp))

/-- The same of one micro-step. -/
theorem microStep_keeps (s t : State) (h : microStep s = .next t) :
    t.params = s.params ∧ t.pinMap = s.pinMap ∧ t.driveStrength = s.driveStrength ∧ t.curCmd = s.curCmd ∧
      t.cmdq = s.cmdq ∧ t.resq = s.resq ∧ t.control = s.control ∧ t.env.inputs = s.env.inputs := by
  unfold microStep at h
  split at h
  · cases h; simp
  · split at h
    · cases h; simp
    · exact runMicro_keeps _ _ _ _ _ h

end Sys2Proof.Machine
end

