-- ==== Sys2Proof/Laws/PerInstr.lean ====
section
/-! SUPPORT. A statement about every instruction as syntax, one lemma per constructor: its encoding has the format and
the fixed bits of its row of spec/opcode_table.json (R108). -/

namespace Sys2Proof.Laws

/-- The fixed bits of an opcode-table row: bits `hi` to `lo` hold `value`. -/
structure FixedBits where
  format : Format
  hi     : Nat
  lo     : Nat
  value  : Nat

/-- The row of an instruction: `tag` is bits 26:24 (for NONE bits 26:25), a NAND opcode or a host byte is bits 7:0. -/
def row : Instr → FixedBits
  | .readId   => { format := .cmdq32, hi := 26, lo := 24, value := 0 }
  | .readPage => { format := .cmdq32, hi := 26, lo := 24, value := 1 }
  | .rstpc    => { format := .cmdq32, hi := 26, lo := 24, value := 2 }
  | .setpc _  => { format := .cmdq32, hi := 26, lo := 24, value := 3 }
  | .getdrv   => { format := .cmdq32, hi := 26, lo := 24, value := 4 }
  | .getinfo  => { format := .cmdq32, hi := 26, lo := 24, value := 5 }
  | .noOp     => { format := .cmdq32, hi := 26, lo := 25, value := 3 }
  | .nandReset       => { format := .nandcmd8, hi := 7, lo := 0, value := 255 }
  | .nandReadId      => { format := .nandcmd8, hi := 7, lo := 0, value := 144 }
  | .nandReadSetup   => { format := .nandcmd8, hi := 7, lo := 0, value := 0 }
  | .nandReadConfirm => { format := .nandcmd8, hi := 7, lo := 0, value := 48 }
  | .hostReadId           => { format := .serial8, hi := 7, lo := 0, value := 48 }
  | .hostReadPage         => { format := .serial8, hi := 7, lo := 0, value := 49 }
  | .hostResetCounter     => { format := .serial8, hi := 7, lo := 0, value := 50 }
  | .hostSetCounter _ _ _ => { format := .serial8, hi := 7, lo := 0, value := 51 }
  | .hostGetDrive         => { format := .serial8, hi := 7, lo := 0, value := 52 }
  | .hostGetInfo          => { format := .serial8, hi := 7, lo := 0, value := 53 }

/-- The number that the first word of a code stands for. -/
def codeNumber : Code → Nat
  | .cmdq w => w.toNat
  | .nandcmd b => b.toNat
  | .serial [] => 0
  | .serial (b :: _) => b.toNat

/-- The encoding of a well-formed instruction has its row's format and its row's fixed bits. -/
def EncodingFitsItsRow.Statement (i : Instr) : Prop :=
  i.wellFormed = true →
    (encode i).format = (row i).format ∧
      codeNumber (encode i) / 2 ^ (row i).lo % 2 ^ ((row i).hi - (row i).lo + 1) = (row i).value

theorem EncodingFitsItsRow.readId : EncodingFitsItsRow.Statement .readId := fun _ => by decide
theorem EncodingFitsItsRow.readPage : EncodingFitsItsRow.Statement .readPage := fun _ => by decide
theorem EncodingFitsItsRow.rstpc : EncodingFitsItsRow.Statement .rstpc := fun _ => by decide
theorem EncodingFitsItsRow.setpc (n : Word) : EncodingFitsItsRow.Statement (.setpc n) := fun h => by
  have h : n.toNat < 2 ^ 24 := of_decide_eq_true h
  refine ⟨rfl, ?_⟩
  simp only [codeNumber, encode, row, BitVec.toNat_add, BitVec.toNat_ofNat]
  omega
theorem EncodingFitsItsRow.getdrv : EncodingFitsItsRow.Statement .getdrv := fun _ => by decide
theorem EncodingFitsItsRow.getinfo : EncodingFitsItsRow.Statement .getinfo := fun _ => by decide
theorem EncodingFitsItsRow.noOp : EncodingFitsItsRow.Statement .noOp := fun _ => by decide
theorem EncodingFitsItsRow.nandReset : EncodingFitsItsRow.Statement .nandReset := fun _ => by decide
theorem EncodingFitsItsRow.nandReadId : EncodingFitsItsRow.Statement .nandReadId := fun _ => by decide
theorem EncodingFitsItsRow.nandReadSetup : EncodingFitsItsRow.Statement .nandReadSetup := fun _ => by decide
theorem EncodingFitsItsRow.nandReadConfirm : EncodingFitsItsRow.Statement .nandReadConfirm := fun _ => by decide
theorem EncodingFitsItsRow.hostReadId : EncodingFitsItsRow.Statement .hostReadId := fun _ => by decide
theorem EncodingFitsItsRow.hostReadPage : EncodingFitsItsRow.Statement .hostReadPage := fun _ => by decide
theorem EncodingFitsItsRow.hostResetCounter : EncodingFitsItsRow.Statement .hostResetCounter := fun _ => by decide
theorem EncodingFitsItsRow.hostSetCounter (b0 b1 b2 : Byte) :
    EncodingFitsItsRow.Statement (.hostSetCounter b0 b1 b2) := fun _ => ⟨rfl, by simp [codeNumber, encode, row]⟩
theorem EncodingFitsItsRow.hostGetDrive : EncodingFitsItsRow.Statement .hostGetDrive := fun _ => by decide
theorem EncodingFitsItsRow.hostGetInfo : EncodingFitsItsRow.Statement .hostGetInfo := fun _ => by decide

end Sys2Proof.Laws
end

