-- ==== Sys2Proof/Laws/Sequencer.lean ====
section
/-! SUPPORT. The laws of the sequencer: where `settle` leaves it, what one micro-step does, and how micro-steps make
runs. `MicroRun P n s t` is a run of `n` micro-steps through states that all meet `P`, so that it is also a run of any
step function that agrees with `microStep` on `P`: a command's meaning, a bus operation's, or the whole machine's. -/

namespace Sys2Proof.Machine

/-! ### `settle` -/

theorem settleWith_stays (n : Nat) (f : Frame) (fs : List Frame) (m : Micro) (h : f.micro? = some m)
    (hc : ∀ o, m ≠ .call o) : settleWith (n + 1) (f :: fs) = f :: fs := by
  unfold settleWith
  cases m <;> simp_all

/-- A frame at a line that is no call stays where it is. -/
theorem settle_stays (f : Frame) (fs : List Frame) (m : Micro) (h : f.micro? = some m) (hc : ∀ o, m ≠ .call o) :
    settle (f :: fs) = f :: fs :=
  settleWith_stays 7 f fs m h hc

/-! ### One micro-step -/

/-- A micro-step is the line the innermost frame stands at. -/
theorem microStep_at (s : State) (f : Frame) (fs : List Frame) (m : Micro) (hs : s.seq = f :: fs)
    (hm : f.micro? = some m) : microStep s = runMicro m f fs s := by
  simp [microStep, hs, hm]

/-- With no operation in progress a micro-step changes nothing. -/
theorem microStep_idle (s : State) (hs : s.seq = []) : microStep s = .next s := by
  simp [microStep, hs]

/-! ### Runs -/

theorem runFor_zero (f : State → Result) (s : State) : runFor f 0 s = .next s := rfl

theorem runFor_succ (f : State → Result) (n : Nat) (s t : State) (h : f s = .next t) :
    runFor f (n + 1) s = runFor f n t := by
  simp [runFor, h]

theorem runFor_add (f : State → Result) : ∀ (n m : Nat) (s t : State), runFor f n s = .next t →
    runFor f (n + m) s = runFor f m t
  | 0, m, s, t, h => by
    simp only [runFor, Host.Outcome.next.injEq] at h
    rw [h, Nat.zero_add]
  | n + 1, m, s, t, h => by
    rw [Nat.add_right_comm]
    cases hf : f s with
    | next u =>
      simp only [runFor, hf] at h
      rw [runFor_succ f (n + m) s u hf]
      exact runFor_add f n m u t h
    | fault r => simp only [runFor, hf] at h; cases h
    | refused r => simp only [runFor, hf] at h; cases h

/-- A run of `n` micro-steps from `s` to `t` in which every micro-step is taken from a state that meets `P`. -/
def MicroRun (P : State → Prop) : Nat → State → State → Prop
  | 0, s, t => s = t
  | n + 1, s, t => P s ∧ ∃ u, microStep s = .next u ∧ MicroRun P n u t

theorem MicroRun.one {P : State → Prop} {s t : State} (hp : P s) (h : microStep s = .next t) : MicroRun P 1 s t :=
  ⟨hp, t, h, rfl⟩

theorem MicroRun.trans {P : State → Prop} : ∀ {n m : Nat} {s t u : State}, MicroRun P n s t → MicroRun P m t u →
    MicroRun P (n + m) s u
  | 0, m, s, t, u, h, h' => by
    rw [Nat.zero_add]; exact (show s = t from h) ▸ h'
  | n + 1, m, s, t, u, ⟨hp, v, hv, h⟩, h' => by
    rw [Nat.add_right_comm]
    exact ⟨hp, v, hv, MicroRun.trans h h'⟩

/-- A micro-run is a run of every step function that agrees with `microStep` on its states. -/
theorem MicroRun.runFor_eq {P : State → Prop} {f : State → Result} (hf : ∀ s, P s → f s = microStep s) :
    ∀ {n : Nat} {s t : State}, MicroRun P n s t → runFor f n s = .next t
  | 0, s, t, h => by rw [runFor, (show s = t from h)]
  | n + 1, s, t, ⟨hp, u, hu, h⟩ => by
    rw [runFor_succ f n s u (by rw [hf s hp, hu])]
    exact MicroRun.runFor_eq hf h

/-- `P` depends only on which operation is outermost, on `phase`, on `wstate` and on the pending inputs, none of which a
micro-step inside an operation changes. -/
def Stable (P : State → Prop) : Prop :=
  ∀ s t : State, P s → outermostOp t.seq = outermostOp s.seq → t.phase = s.phase → t.wstate = s.wstate →
    t.env.inputs = s.env.inputs → P t

theorem stable_true : Stable (fun _ => True) := fun _ _ _ _ _ _ _ => trivial

theorem outermostOp_line (f : Frame) (l : Nat) (fs : List Frame) :
    outermostOp ({ f with line := l } :: fs) = outermostOp (f :: fs) := by
  cases fs <;> simp [outermostOp]

/-! ### Straight-line code -/

/-- What a line of pin events or waits does besides moving on; `none` for every other line. -/
def Micro.plain : Micro → Option (State → State)
  | .setDir d => some (fun s => s.setDir d)
  | .setOut b => some (fun s => s.setOut b)
  | .drive p v => some (fun s => s.drive p v)
  | .wait t => some (fun s => s.emit (.wait t))
  | _ => none

/-- The effect of plain lines in order. -/
def plainEffect : List Micro → State → State
  | [], s => s
  | m :: ms, s => plainEffect ms ((m.plain.getD id) s)

theorem runMicro_plain (m : Micro) (g : State → State) (f : Frame) (fs : List Frame) (s : State)
    (h : m.plain = some g) : runMicro m f fs s = .next ((g s).advance f fs) := by
  cases m <;> simp [Micro.plain] at h <;> subst h <;> rfl

theorem plain_keeps (m : Micro) (g : State → State) (s : State) (h : m.plain = some g) :
    (g s).seq = s.seq ∧ (g s).phase = s.phase ∧ (g s).wstate = s.wstate ∧ (g s).env = s.env := by
  cases m <;> simp [Micro.plain] at h <;> subst h <;> exact ⟨rfl, rfl, rfl, rfl⟩

theorem plain_seq (m : Micro) (g : State → State) (s : State) (q : List Frame) (h : m.plain = some g) :
    g { s with seq := q } = { g s with seq := q } := by
  cases m <;> simp [Micro.plain] at h <;> subst h <;> rfl

theorem plainEffect_seq : ∀ (ms : List Micro) (s : State) (q : List Frame), (∀ m ∈ ms, m.plain.isSome = true) →
    plainEffect ms { s with seq := q } = { plainEffect ms s with seq := q }
  | [], _, _, _ => rfl
  | m :: ms, s, q, h => by
    obtain ⟨g, hg⟩ := Option.isSome_iff_exists.mp (h m (List.mem_cons_self ..))
    simp only [plainEffect, hg, Option.getD_some]
    rw [plain_seq m g s q hg, plainEffect_seq ms (g s) q (fun m' hm' => h m' (List.mem_cons_of_mem _ hm'))]

theorem plain_not_call (m : Micro) (h : m.plain.isSome = true) : ∀ o, m ≠ .call o := by
  intro o e; subst e; simp [Micro.plain] at h

/-- A stretch of plain lines runs to its end, with their effects in order, and the sequencer settles after it. -/
theorem run_plain {P : State → Prop} (hP : Stable P) : ∀ (ms : List Micro) (s : State) (f : Frame) (fs : List Frame),
    ms ≠ [] → (∀ m ∈ ms, m.plain.isSome = true) → s.seq = f :: fs →
    (∀ i (h : i < ms.length), f.op.body[f.line + i]? = some ms[i]) → P s →
    MicroRun P ms.length s
      { plainEffect ms s with seq := settle ({ f with line := f.line + ms.length } :: fs) }
  | [], _, _, _, h, _, _, _, _ => absurd rfl h
  | [m], s, f, fs, _, hm, hs, hb, hp => by
    obtain ⟨g, hg⟩ := Option.isSome_iff_exists.mp (hm m (List.mem_cons_self ..))
    refine MicroRun.one hp ?_
    rw [microStep_at s f fs m hs (by simpa [Frame.micro?] using hb 0 (by simp)), runMicro_plain m g f fs s hg]
    simp [plainEffect, hg, State.advance, State.goTo]
  | m :: m' :: ms, s, f, fs, _, hm, hs, hb, hp => by
    obtain ⟨g, hg⟩ := Option.isSome_iff_exists.mp (hm m (List.mem_cons_self ..))
    have hk := plain_keeps m g s hg
    have hstep : microStep s = .next ((g s).advance f fs) := by
      rw [microStep_at s f fs m hs (hb 0 (by simp)), runMicro_plain m g f fs s hg]
    have hm' : m'.plain.isSome = true := hm m' (by simp)
    have hline : ({ f with line := f.line + 1 } : Frame).micro? = some m' := by
      exact hb 1 (by simp)
    have hseq : ((g s).advance f fs).seq = { f with line := f.line + 1 } :: fs := by
      simp [settle_stays _ fs m' hline (plain_not_call m' hm')]
    have hp' : P ((g s).advance f fs) := by
      refine hP s _ hp ?_ hk.2.1 hk.2.2.1 (by simp [hk.2.2.2])
      rw [hseq, hs]; exact outermostOp_line f _ fs
    have ih := run_plain hP (m' :: ms) ((g s).advance f fs) { f with line := f.line + 1 } fs (by simp)
      (fun x hx => hm x (List.mem_cons_of_mem _ hx)) hseq
      (fun i hi => by
        have := hb (i + 1) (by simpa using hi)
        simpa [Nat.add_assoc, Nat.add_comm 1 i] using this) hp'
    have hall : ∀ x ∈ m' :: ms, x.plain.isSome = true := fun x hx => hm x (List.mem_cons_of_mem _ hx)
    have e : ({ plainEffect (m' :: ms) ((g s).advance f fs) with
          seq := settle ({ f with line := f.line + 1 + (m' :: ms).length } :: fs) } : State) =
        { plainEffect (m :: m' :: ms) s with
          seq := settle ({ f with line := f.line + (m :: m' :: ms).length } :: fs) } := by
      have e1 : (g s).advance f fs = { g s with seq := settle ({ f with line := f.line + 1 } :: fs) } := rfl
      rw [e1, plainEffect_seq (m' :: ms) (g s) _ hall]
      simp [plainEffect, hg, Nat.add_assoc, Nat.add_comm 1]
    exact ⟨hp, _, hstep, e ▸ ih⟩

end Sys2Proof.Machine
end

