-- ==== Sys2Proof/Laws/Turns.lean ====
section
/-! SUPPORT. What one step of the machine is, input by input, and what one turn of each agent is, phase by phase. -/

namespace Sys2Proof.Machine

/-! ### The next input -/

@[simp] theorem Env.nextInput_nil (e : Env) (h : e.inputs = []) : e.nextInput = (.worker, e) := by
  simp [Env.nextInput, h]

@[simp] theorem Env.nextInput_cons (e : Env) (i : Input) (is : List Input) (h : e.inputs = i :: is) :
    e.nextInput = (i, { e with inputs := is }) := by
  simp [Env.nextInput, h]

/-- A step takes the next input. -/
theorem step_of_next (s : State) (i : Input) (e : Env) (h : s.env.nextInput = (i, e)) :
    step s = takeInput i { s with env := e } := by
  simp [step, h]

/-- With no input listed a step is a turn of W. -/
theorem step_worker (s : State) (h : s.env.inputs = []) : step s = workerTurn s := by
  rw [step_of_next s .worker s.env (Env.nextInput_nil s.env h)]; rfl

/-- With an input listed a step takes it. -/
theorem step_input (s : State) (i : Input) (is : List Input) (h : s.env.inputs = i :: is) :
    step s = takeInput i { s with env := { s.env with inputs := is } } :=
  step_of_next s i _ (Env.nextInput_cons s.env i is h)

/-! ### The turn of W -/

theorem workerTurn_halted (s : State) (h : s.phase = .halted) : workerTurn s = .next s := by
  simp [workerTurn, h]

theorem workerTurn_wait (s : State) (h : s.phase = .run) (hw : s.wstate = .waitForCommand) :
    workerTurn s = .next s.takeCommand := by
  simp [workerTurn, h, hw]

theorem workerTurn_execute (s : State) (h : s.phase = .run) (hw : s.wstate = .execute) :
    workerTurn s = exec s.workerInstr s := by
  simp [workerTurn, h, hw]

theorem workerTurn_publish (s : State) (h : s.phase = .run) (hw : s.wstate = .publishResult) :
    workerTurn s = .next s.publish := by
  simp [workerTurn, h, hw]

/-- Inside a bus operation W's instruction is what its opcode decodes to, whatever CUR_CMD holds. -/
theorem State.workerInstr_bus (s : State) (b : Byte) (i : Instr) (hb : busOpcode s.seq = some b)
    (hd : decode (.nandcmd b) = some i) : s.workerInstr = i := by
  simp [State.workerInstr, State.busInstr, hb, hd]

theorem State.workerInstr_command (s : State) (hb : busOpcode s.seq = none) :
    s.workerInstr = decodeCommand s.curCmd := by
  simp [State.workerInstr, State.busInstr, hb]

/-! ### Commands and bus operations in progress -/

/-- A command in progress goes on from where it stands. -/
theorem execReadId_inside (s : State) (h : outermostOp s.seq = some .cmdReadId) : execReadId s = microStep s := by
  simp [execReadId, State.commandEntry, h]

theorem execReadPage_inside (s : State) (h : outermostOp s.seq = some .cmdReadPage) :
    execReadPage s = microStep s := by
  simp [execReadPage, State.commandEntry, h]

/-- Inside a bus operation the meaning of its opcode is the next micro-step. -/
theorem exec_bus (s : State) (b : Byte) (i : Instr) (hb : busOpcode s.seq = some b)
    (hd : decode (.nandcmd b) = some i) : exec i s = microStep s := by
  simp only [decode, decodeNandByte] at hd
  split_ifs at hd with h1 h2 h3 h4 <;> cases hd
  · simp [exec, execNandReset, State.busEntry, hb, h1]
  · simp [exec, execNandReadId, State.busEntry, hb, h2]
  · simp [exec, execNandReadSetup, State.pageRead, hb, h3]
  · simp [exec, execNandReadConfirm, State.pageRead, hb, h4]

/-! ### The turn of C -/

theorem controlTurn_held (s : State) (t : Txn) (h : s.control.held = some t) : controlTurn s = .next (s.perform t) := by
  simp [controlTurn, h]

theorem controlTurn_serve (s : State) (i : Instr) (st : Stage) (h : s.control.held = none)
    (hp : s.control.pos = .serve i st) : controlTurn s = exec i s := by
  simp [controlTurn, h, hp]

theorem controlTurn_fetch (s : State) (i : Instr) (rest : List Byte) (h : s.control.held = none)
    (hp : s.control.pos = .idle) (hf : fetchSerial s.control.serialIn = .complete i rest) :
    controlTurn s = exec i { s with control := { s.control with serialIn := rest } } := by
  simp [controlTurn, h, hp, hf]

/-! ### Hard reset -/

/-- A hard reset is the reset state for the parameters at hand, but for the environment and the histories and pending
bytes of the control side. -/
theorem State.hardReset_eq (s : State) :
    s.hardReset =
      { State.resetFor s.params with
        env := s.env
        control := { Control.reset with
          serialIn := s.control.serialIn, responses := s.control.responses, reports := s.control.reports } } := rfl

end Sys2Proof.Machine
end

