-- ==== Sys2Proof/Tests/Slice0.lean ====
section
/-! SUPPORT. Tests: the words of the spec's encodings, one step of every instruction against the spec's own vectors
(95_test_vectors.md), and a witness for the hypotheses of every statement that has some. -/

namespace Sys2Proof.Tests

open Sys2Proof Sys2Proof.Machine

/-! ### The states the tests start from -/

/-- The reference parameters of 95_test_vectors.md, but `BUF_SIZE = 4352`, with the given `RY_TIMEOUT - 1`. -/
def params (ry : Option Nat) : Params :=
  { cmdqExtra := 1, resqExtra := 1, bufExtra := 0, ryExtra := ry, wpLevel := true, driveStrength := 0#32,
    pinMap := { ioBase := 0, cle := 8, ale := 9, ce := 10, re := 11, we := 12, wp := 13, ry := 14 } }

/-- The identification bytes of the §8 chip. -/
def id8 : IdBytes := { b0 := 0x98#8, b1 := 0xDC#8, b2 := 0x90#8, b3 := 0x26#8, b4 := 0x76#8 }

/-- The NFC in RUN after the startup with the §8 chip, with the page counter at `page`. -/
def run (page : Word) : State :=
  { State.resetFor (params none) with
    phase := .run, seq := [], geom := some geometry4096, bootId := id8, bootIdValid := true, pageCounter := page,
    flags := { geomValid := true, errGeometry := false, errIoWidth := false, errNotReady := false } }

/-- The same, executing the command word `w` with the sequencer at `seq`. -/
def executing (page w : Word) (seq : List Frame) : State :=
  { run page with wstate := .execute, curCmd := Command.ofWord w, seq := seq }

/-- The NFC in RUN with the Serial Command Interface at `pos` and `q` in RESQ. -/
def serving (pos : CtlPos) (q : List Word) : State :=
  { run 0#32 with
    resq := q
    control := { Control.reset with pos := pos, sizes := geometry4096 } }

/-- What is looked at of the next state, if there is one. -/
def after {α : Type} (r : Result) (look : State → α) : Option α :=
  match r with
  | .next t => some (look t)
  | _ => none

/-- A frame with no local. -/
def stand (o : Op) (line : Nat) : Frame := { op := o, line := line, loc := 0 }

/-! ### WellFormed -/

theorem test_setpc_largest_is_well_formed : (Instr.setpc 0x00FFFFFF#32).wellFormed = true := by decide
theorem test_setpc_of_25_bits_is_refused : (Instr.setpc 0x01000000#32).wellFormed = false := by decide

/-! ### Decoding: the words of R90 to R92, R98, R100 and R106 -/

theorem test_decode_readId :
    decode (.cmdq 0b00000_000_000000000000000000000000#32) = some .readId := by decide
theorem test_decode_readPage_reserved_bits_set :
    decode (.cmdq 0b11111_001_000000000000000000000000#32) = some .readPage := by decide
theorem test_decode_rstpc_argument_ignored :
    decode (.cmdq 0b00000_010_000100100011010001010110#32) = some .rstpc := by decide
theorem test_decode_setpc :
    decode (.cmdq 0b00000_011_000000010001001000110100#32) = some (.setpc 0x11234#32) := by decide
theorem test_decode_getdrv :
    decode (.cmdq 0b00000_100_000000000000000000000000#32) = some .getdrv := by decide
theorem test_decode_getinfo :
    decode (.cmdq 0b00000_101_000000000000000000000000#32) = some .getinfo := by decide
theorem test_decode_none_tag_6 :
    decode (.cmdq 0b00000_110_000000000000000000000000#32) = some .noOp := by decide
theorem test_decode_none_tag_7 :
    decode (.cmdq 0b00000_111_101010111100110111101111#32) = some .noOp := by decide
theorem test_decode_nandReset : decode (.nandcmd 0b11111111#8) = some .nandReset := by decide
theorem test_decode_nandReadId : decode (.nandcmd 0b10010000#8) = some .nandReadId := by decide
theorem test_decode_nandReadSetup : decode (.nandcmd 0b00000000#8) = some .nandReadSetup := by decide
theorem test_decode_nandReadConfirm : decode (.nandcmd 0b00110000#8) = some .nandReadConfirm := by decide
theorem test_decode_nand_has_no_program_opcode : decode (.nandcmd 0x80#8) = none := by decide
theorem test_decode_hostReadId : decode (.serial [0b00110000#8]) = some .hostReadId := by decide
theorem test_decode_hostReadPage : decode (.serial [0b00110001#8]) = some .hostReadPage := by decide
theorem test_decode_hostResetCounter : decode (.serial [0b00110010#8]) = some .hostResetCounter := by decide
theorem test_decode_hostSetCounter :
    decode (.serial [0b00110011#8, 0x34#8, 0x12#8, 0x01#8]) = some (.hostSetCounter 0x34#8 0x12#8 0x01#8) := by decide
theorem test_decode_hostGetDrive : decode (.serial [0b00110100#8]) = some .hostGetDrive := by decide
theorem test_decode_hostGetInfo : decode (.serial [0b00110101#8]) = some .hostGetInfo := by decide
theorem test_decode_other_host_byte : decode (.serial [0b00110110#8]) = none := by decide
theorem test_encode_setpc : encode (.setpc 0x11234#32) = .cmdq 0x03011234#32 := by decide

theorem test_dump_and_readat_expand :
    pseudoDump 2 = [.rstpc, .readPage, .readPage] ∧ pseudoReadAt 0x11234#32 = [.setpc 0x11234#32, .readPage] ∧
      dumpDriverBytes 2 = [0x32#8, 0x31#8, 0x31#8] := by decide

/-! ### The Commands: V50 to V68 -/

theorem test_readId_result_is_five :
    after (exec .readId (executing 0#32 0x00000000#32 [stand .cmdReadId 1])) (fun t => (t.curRes, t.wstate)) =
      some (0x00000005#32, .publishResult) := by decide
theorem test_readId_begins_with_the_command_cycle :
    after (exec .readId (executing 0#32 0x00000000#32 [])) (fun t => t.trace) = some [.ioDir .output] := by decide
theorem test_readPage_past_the_end :
    after (exec .readPage { executing 0x20000#32 0x01000000#32 [] with buf := [(0, 0xAB#8)] })
      (fun t => (t.curRes, t.pageCounter, t.buf, t.trace)) =
      some (0x00000000#32, 0x20000#32, [(0, 0xAB#8)], []) := by decide
theorem test_readPage_of_the_last_page :
    after (exec .readPage
        (executing 0x1FFFF#32 0x01000000#32 [{ op := .cmdReadPage, line := 3, loc := 4352 }]))
      (fun t => (t.curRes, t.pageCounter)) = some (0x00001100#32, 0x20000#32) := by decide
theorem test_rstpc :
    after (exec .rstpc (executing 7#32 0x02000000#32 [])) (fun t => (t.pageCounter, t.curRes, t.trace)) =
      some (0#32, 1#32, []) := by decide
theorem test_setpc_accepts_the_last_page :
    after (exec (.setpc 0x1FFFF#32) (executing 5#32 0x0301FFFF#32 [])) (fun t => (t.pageCounter, t.curRes)) =
      some (0x1FFFF#32, 1#32) := by decide
theorem test_setpc_rejects_the_next :
    after (exec (.setpc 0x20000#32) (executing 5#32 0x03020000#32 [])) (fun t => (t.pageCounter, t.curRes)) =
      some (5#32, 0#32) := by decide
theorem test_getdrv :
    after (exec .getdrv (executing 5#32 0x04000000#32 [])) (fun t => (t.curRes, t.trace)) = some (0#32, []) := by decide
theorem test_getinfo :
    after (exec .getinfo (executing 5#32 0x05000000#32 [])) (fun t => (t.curRes, t.trace)) = some (0#32, []) := by decide
theorem test_none :
    after (exec .noOp (executing 5#32 0x07ABCDEF#32 [])) (fun t => (t.curRes, t.pageCounter)) = some (0#32, 5#32) := by
  decide

/-! ### The command cycles of the NAND bus: V1, V4, V5, V10, V12 -/

theorem test_nandReset_begins_with_output :
    after (exec .nandReset (run 0#32)) (fun t => (t.trace, t.pins.ioDir)) = some ([.ioDir .output], .output) := by decide
theorem test_nandReset_disables_the_chip :
    after (exec .nandReset (executing 0#32 0x01000000#32 [stand .reset 1])) (fun t => (t.trace, t.pins.cen)) =
      some ([.pin .cen true], true) := by decide
theorem test_nandReadId_drives_its_opcode :
    after (exec .nandReadId
        (executing 0#32 0#32 [stand (.assertCommand 0x90#8) 1, stand (.readId .buf) 1, stand .cmdReadId 1]))
      (fun t => t.trace) = some [.ioOut 0x90#8] := by decide
theorem test_nandReadId_stores_what_it_samples :
    after (exec .nandReadId
        { executing 0#32 0#32 [stand (.readBytes 5 .buf) 12, stand (.readId .buf) 3, stand .cmdReadId 1] with
          byteIdx := 1, env := { Env.reset with sampleIn := [0xDC#8] } })
      (fun t => (t.buf, t.trace)) = some ([(1, 0xDC#8)], [.sample 0xDC#8]) := by decide
theorem test_nandReadSetup_third_address_byte :
    after (exec .nandReadSetup
        (executing 0x11234#32 0x01000000#32
          [stand (.assertRowColumnAddress 0x11234#32 0#32) 16, stand (.readPage 0x11234#32 4352) 3]))
      (fun t => t.pins.ioOut) = some 0x34#8 := by decide
theorem test_nandReadSetup_fifth_address_byte :
    after (exec .nandReadSetup
        (executing 0x11234#32 0x01000000#32
          [stand (.assertRowColumnAddress 0x11234#32 0#32) 28, stand (.readPage 0x11234#32 4352) 3]))
      (fun t => t.pins.ioOut) = some 0x01#8 := by decide
theorem test_nandReadConfirm_drives_its_opcode :
    after (exec .nandReadConfirm
        (executing 0#32 0x01000000#32 [stand (.assertCommand 0x30#8) 1, stand (.readPage 0#32 4352) 4]))
      (fun t => t.trace) = some [.ioOut 0x30#8] := by decide
theorem test_nandReadConfirm_settles :
    after (exec .nandReadConfirm (executing 0#32 0x01000000#32 [stand (.readPage 0#32 4352) 4]))
      (fun t => t.trace) = some [.wait .tRSETTLE] := by decide

/-! ### The host bytes: V110 to V119, S5, S10 -/

theorem test_host_0_pushes_READID :
    after (exec .hostReadId (serving .idle [])) (fun t => t.cmdq) = some [0x00000000#32] := by decide
theorem test_host_0_reads_five_bytes :
    after (exec .hostReadId (serving (.serve .hostReadId .pop) [5#32])) (fun t => (t.resq, t.control.pos)) =
      some ([], .serve .hostReadId (.copy 5 0 [])) := by decide
theorem test_host_1_pushes_READPAGE :
    after (exec .hostReadPage (serving .idle [])) (fun t => t.cmdq) = some [0x01000000#32] := by decide
theorem test_host_1_accepts_a_whole_page :
    after (exec .hostReadPage (serving (.serve .hostReadPage .pop) [4352#32])) (fun t => t.control.pos) =
      some (.serve .hostReadPage (.copy 4352 0 [])) := by decide
theorem test_host_2_pushes_RSTPC :
    after (exec .hostResetCounter (serving .idle [])) (fun t => t.cmdq) = some [0x02000000#32] := by decide
theorem test_host_2_reports_a_wrong_size :
    after (exec .hostResetCounter (serving (.serve .hostResetCounter .pop) [0#32]))
      (fun t => (t.control.pos, t.control.reports, resultWords t.control.responses)) =
      some (.idle, [.error 0], [0#32]) := by decide
theorem test_host_3_pushes_SETPC :
    after (exec (.hostSetCounter 0x34#8 0x12#8 0x01#8) (serving .idle [])) (fun t => t.cmdq) =
      some [0x03011234#32] := by decide
theorem test_host_3_drops_seven_bits :
    after (exec (.hostSetCounter 0xFF#8 0xFF#8 0xFF#8) (serving .idle [])) (fun t => t.cmdq) =
      some [0x0301FFFF#32] := by decide
theorem test_host_4_reports_the_drive_strength :
    after (exec .hostGetDrive (serving .idle [])) (fun t => (t.cmdq, t.control.reports)) =
      some ([], [.driveStrength 0#32]) := by decide
theorem test_host_5_reports_the_sizes :
    after (exec .hostGetInfo (serving .idle [])) (fun t => t.control.reports) =
      some [.line ['4', '0', '9', '6', ',', '2', '5', '6', ',', '5', '7', '0', '4', '2', '5', '3', '4', '4']] := by
  decide

/-! ### Operations: V30, V35, V80, V81, V85, V89, V96 -/

theorem test_decodeGeometry_of_the_chip :
    decodeGeometry id8 = some { pageSize := 4096#32, spareSize := 256#32, totalSize := 570425344#32 } := by decide
theorem test_checkIoWidth_rejects_x16 : checkIoWidth { id8 with b3 := 0x66#8 } = false := by decide
theorem test_status_at_reset : (State.resetFor (params none)).status = 0x00000100#32 := by decide
theorem test_status_idle : (run 0#32).status = 0x00000005#32 := by decide
theorem test_status_halted_by_io_width :
    State.status { run 0#32 with phase := .halted, flags := ⟨true, false, true, false⟩ } = 0x00000016#32 := by decide
theorem test_boot_id0 : (run 0#32).register 0x1C = some 0x2690DC98#32 := by decide
theorem test_port_error :
    (portAccess (.regRead 0x24) (run 0#32)).map Prod.fst = some .portErr ∧
      (portAccess (.regRead 0x02) (run 0#32)).map Prod.fst = some .portErr := by decide
theorem test_port_pop_records_its_result :
    after (takeInput (.port (.regRead 0x04)) (serving .idle [5#32])) (fun t => (t.resq, resultWords t.control.responses)) =
      some ([], [5#32]) := by decide
theorem test_quiescent_while_the_payload_is_read :
    (serving (.serve .hostReadPage (.copy 4352 7 [])) []).quiescent = true ∧
      (serving (.serve .hostReadPage .pop) []).quiescent = false := by decide
theorem test_write_of_zero_keeps_the_canonical_form : Memory.write [(3, 7#8)] 3 0x00#8 = [] := by decide
theorem test_reset_memory_is_canonical : State.reset.buf.wf = true := by decide
theorem test_table_word_of_RSTPC : decodeTableWord 32 0x02000000 = some .rstpc := by decide
theorem test_fetched_command_runs_first :
    after (step (State.reset.withFetchWord 32 0x03000009)) (fun t => (t.pageCounter, t.curRes)) =
      some (9#32, 1#32) := by decide
theorem test_fetched_host_byte_runs_first :
    after (step (State.reset.withFetchWord 8 0x35)) (fun t => t.control.reports) =
      some [.line ['0', ',', '0', ',', '0']] := by decide

/-! ### Witnesses: the hypotheses of each statement can be met -/

/-- The state `s` with the chip's next answers listed. -/
def answering (s : State) (ry : List Level) (bs : List Byte) : State :=
  { s with env := { Env.reset with ryIn := ry, sampleIn := bs } }

/-- The same with `RY_TIMEOUT = some n`. -/
def giving (n : Nat) (s : State) : State := { s with params := params (some (n - 1)) }

/-- `s` with the next input `i`. -/
def facing (s : State) (i : Input) : State := { s with env := { s.env with inputs := [i] } }

/-- The result is a next state. -/
def answers (r : Result) : Bool := (after r (fun _ => ())).isSome

/-- What `answers` says. -/
theorem next_of_answers (r : Result) (h : answers r = true) : ∃ t, r = .next t := by
  cases r with
  | next t => exact ⟨t, rfl⟩
  | fault _ => cases h
  | refused _ => cases h

theorem witness_DecodeAfterEncode : (Instr.setpc 0x00FFFFFF#32).wellFormed = true := by decide

theorem witness_DecodedInstructionsAreWellFormed :
    decode (.cmdq 0x03FFFFFF#32) = some (.setpc 0x00FFFFFF#32) := by decide

theorem witness_HostBytesTellTheirLength :
    encode (.hostSetCounter 1#8 2#8 3#8) = .serial [0x33#8, 1#8, 2#8, 3#8] ∧ [0x34#8, 0x12#8].length < 3 ∧
      ¬ (0x30 ≤ (0x2F#8).toNat ∧ (0x2F#8).toNat ≤ 0x35) ∧ ¬ (0x30 ≤ (0x36#8).toNat ∧ (0x36#8).toNat ≤ 0x35) := by
  decide

theorem witness_DecodeGeometryIsExact :
    (∃ id : IdBytes, id.b0 = 0x98#8 ∧ id.b3.toNat % 4 = 1) ∧ (∃ id : IdBytes, id.b0 = 0x98#8 ∧ id.b3.toNat % 4 = 2) ∧
      (∃ id : IdBytes, id.b0 ≠ 0x98#8 ∧ id.b3.toNat % 4 = 2) ∧ (∃ id : IdBytes, id.b0 = 0x98#8 ∧ id.b3.toNat % 4 = 0) ∧
      (∃ id : IdBytes, id.b0 = 0x98#8 ∧ id.b3.toNat % 4 = 3) :=
  ⟨⟨{ id8 with b3 := 0xA5#8 }, by decide⟩, ⟨id8, by decide⟩, ⟨{ id8 with b0 := 0x99#8 }, by decide⟩,
    ⟨{ id8 with b3 := 0x24#8 }, by decide⟩, ⟨{ id8 with b3 := 0x27#8 }, by decide⟩⟩

theorem witness_RstpcResult : (0x02123456#32).toNat / 2 ^ 24 % 8 = 2 := by decide

theorem witness_SetpcResult :
    (0x1FFFF#32).toNat < 2 ^ 17 ∧ 2 ^ 17 ≤ (0x20000#32).toNat ∧ (0xFBFFFFFF#32).toNat / 2 ^ 24 % 8 = 3 := by decide

theorem witness_NoOpResult :
    (∃ i : Instr, i = .getdrv ∨ i = .getinfo ∨ i = .noOp) ∧ (0x04000000#32).toNat / 2 ^ 24 % 8 = 4 ∧
      (0x05000000#32).toNat / 2 ^ 24 % 8 = 5 ∧ (0x06000000#32).toNat / 2 ^ 25 % 4 = 3 ∧
      (0x07ABCDEF#32).toNat / 2 ^ 25 % 4 = 3 := ⟨⟨.noOp, by decide⟩, by decide⟩

/-- Every timing parameter that its constraint lets be 0 at its bound, and a clock period that is no whole number of
picoseconds. -/
theorem witness_ParametersMeetTheirConstraints :
    (params (some 0)).ryTimeout = some 1 ∧
      TimingOk
        (fun
          | .tCS => 20
          | .tWP | .tCLH | .tALH => 12
          | .t5CS | .t5WP | .t5WH => 21
          | .t5DS | .tREA | .tRSETTLE => 1
          | .tREH => 0
          | .tRST => 600000) (1000 / 133) :=
  ⟨by decide, by norm_num [TimingOk]⟩

theorem witness_ReadPageRejectsPastTheEnd :
    ∃ s : State, s.seq = [] ∧ 2 ^ 17 ≤ s.pageCounter.toNat := ⟨run 0x20000#32, by decide⟩

theorem witness_AssertCommandRuns :
    ∃ (s : State) (b : Byte) (fs : List Frame), s.seq = (Op.assertCommand b).start :: fs :=
  ⟨State.resetFor (params none), 0xFF#8, [stand .reset 1, stand .startup 1], by decide⟩

theorem witness_AssertSingleAddressByteRuns :
    ∃ (s : State) (b : Byte) (fs : List Frame), s.seq = (Op.assertSingleAddressByte b).start :: fs :=
  ⟨executing 0#32 0#32 [stand (.assertSingleAddressByte 0x00#8) 0, stand (.readId .buf) 2, stand .cmdReadId 1],
    0x00#8, _, rfl⟩

theorem witness_AssertRowColumnAddressRuns :
    ∃ (s : State) (page column : Word) (fs : List Frame),
      s.seq = (Op.assertRowColumnAddress page column).start :: fs :=
  ⟨executing 0x1FFFF#32 0x01000000#32
      [stand (.assertRowColumnAddress 0x1FFFF#32 0#32) 0, stand (.readPage 0x1FFFF#32 4352) 3],
    0x1FFFF#32, 0#32, _, rfl⟩

/-- A `ReadBytes(2, BUF)` that polls three zeros under `RY_TIMEOUT = some 4`. -/
theorem witness_ReadBytesFillsTheBuffer :
    ∃ (s : State) (k : Nat) (bs zs : List Byte) (ys : List Level) (fs : List Frame),
      s.seq = (Op.readBytes bs.length .buf).start :: fs ∧ bs.length ≤ s.params.bufSize ∧ s.buf.wf = true ∧
        patient s.params k = true ∧ s.env.ryIn = List.replicate k false ++ true :: ys ∧ s.env.sampleIn = bs ++ zs :=
  ⟨giving 4 (answering (executing 0#32 0#32 [stand (.readBytes 2 .buf) 0]) [false, false, false, true] [0x98#8, 0xDC#8]),
    3, [0x98#8, 0xDC#8], [], [], [], by decide⟩

theorem witness_ReadBytesGivesUp :
    ∃ (s : State) (count n : Nat) (d : Dest) (ys : List Level) (fs : List Frame),
      s.seq = (Op.readBytes count d).start :: fs ∧ s.params.ryTimeout = some n ∧
        s.env.ryIn = List.replicate n false ++ ys :=
  ⟨giving 1 (answering (executing 0#32 0#32 [stand (.readBytes 5 .buf) 0]) [false] []), 5, 1, .buf, [], [], by decide⟩

theorem witness_PollingWithoutTimeoutHangs :
    ∃ (s : State) (k : Nat) (ys : List Level),
      s.polling = true ∧ s.params.ryTimeout = none ∧ s.env.ryIn = List.replicate k false ++ ys :=
  ⟨answering (executing 0#32 0#32 [stand (.readBytes 5 .buf) 7]) [false, false] [], 2, [], by decide⟩

theorem witness_NandResetRuns : ∃ s : State, s.seq = [] := ⟨run 0#32, rfl⟩

theorem witness_NandReadIdRuns :
    ∃ (s : State) (k : Nat) (b0 b1 b2 b3 b4 : Byte) (ys : List Level) (zs : List Byte),
      s.seq = [] ∧ s.phase ≠ .init ∧ s.buf.wf = true ∧ patient s.params k = true ∧
        s.env.ryIn = List.replicate k false ++ true :: ys ∧ s.env.sampleIn = b0 :: b1 :: b2 :: b3 :: b4 :: zs :=
  ⟨answering (run 0#32) [false, true] [0x98#8, 0xDC#8, 0x90#8, 0x26#8, 0x76#8], 1, 0x98#8, 0xDC#8, 0x90#8, 0x26#8, 0x76#8,
    [], [], by decide⟩

theorem witness_NandReadSetupRuns : ∃ (s : State) (g : Geometry), s.seq = [] ∧ s.geom = some g :=
  ⟨run 0x1FFFF#32, geometry4096, by decide⟩


/-- Any 4352 bytes can be a page. -/
theorem page_of_bytes (bs : List Byte) (h : bs.length = 4352) :
    ∃ (s : State) (g : Geometry) (k : Nat) (zs : List Byte) (ys : List Level),
      s.seq = [] ∧ s.pageCounter.toNat < 2 ^ 17 ∧ s.geom = some g ∧ (g = geometry2048 ∨ g = geometry4096) ∧
        bs.length = g.pageSize.toNat + g.spareSize.toNat ∧ s.bufOk = true ∧ s.buf.wf = true ∧
        patient s.params k = true ∧ s.env.ryIn = List.replicate k false ++ true :: ys ∧ s.env.sampleIn = bs ++ zs :=
  ⟨answering (run 0x1FFFF#32) [true] bs, geometry4096, 0, [], [], rfl,
    (by decide : (0x1FFFF#32).toNat < 2 ^ 17), rfl, .inr rfl, h, rfl, rfl, rfl, rfl, (List.append_nil bs).symm⟩

/-- The last page, under the larger geometry. -/
theorem witness_ReadPageRunsToItsResult :
    ∃ (bs : List Byte) (s : State) (g : Geometry) (k : Nat) (zs : List Byte) (ys : List Level),
      s.seq = [] ∧ s.pageCounter.toNat < 2 ^ 17 ∧ s.geom = some g ∧ (g = geometry2048 ∨ g = geometry4096) ∧
        bs.length = g.pageSize.toNat + g.spareSize.toNat ∧ s.bufOk = true ∧ s.buf.wf = true ∧
        patient s.params k = true ∧ s.env.ryIn = List.replicate k false ++ true :: ys ∧ s.env.sampleIn = bs ++ zs :=
  ⟨List.replicate 4352 0x5A#8, page_of_bytes _ List.length_replicate⟩

theorem witness_NandReadConfirmRuns :
    ∃ (s : State) (g : Geometry) (k : Nat) (bs zs : List Byte) (ys : List Level),
      s.seq = [] ∧ s.geom = some g ∧ (g = geometry2048 ∨ g = geometry4096) ∧
        bs.length = g.pageSize.toNat + g.spareSize.toNat ∧ s.buf.wf = true ∧ patient s.params k = true ∧
        s.env.ryIn = List.replicate k false ++ true :: ys ∧ s.env.sampleIn = bs ++ zs :=
  have ⟨bs, s, g, k, zs, ys, h1, _, h3, h4, h5, _, h7, h8, h9, h10⟩ := witness_ReadPageRunsToItsResult
  ⟨s, g, k, bs, zs, ys, h1, h3, h4, h5, h7, h8, h9, h10⟩

/-- Two states that differ in CUR_RES and in the events before. -/
theorem witness_ReadPageIsDeterminedByTheChip :
    ∃ (s s' : State) (g : Geometry) (k : Nat) (bs zs : List Byte) (ys : List Level),
      s'.trace ≠ s.trace ∧ s.seq = [] ∧ s'.seq = [] ∧ s.pageCounter.toNat < 2 ^ 17 ∧ s'.pageCounter = s.pageCounter ∧
        s'.params = s.params ∧ s.geom = some g ∧ s'.geom = some g ∧ (g = geometry2048 ∨ g = geometry4096) ∧
        bs.length = g.pageSize.toNat + g.spareSize.toNat ∧ s.bufOk = true ∧ s'.bufOk = true ∧
        patient s.params k = true ∧ s.env.ryIn = List.replicate k false ++ true :: ys ∧ s.env.sampleIn = bs ++ zs ∧
        s'.env.ryIn = s.env.ryIn ∧ s'.env.sampleIn = s.env.sampleIn :=
  have ⟨bs, s, g, k, zs, ys, h1, h2, h3, h4, h5, h6, _, h8, h9, h10⟩ := witness_ReadPageRunsToItsResult
  ⟨s, { s with curRes := 9#32, trace := s.trace ++ [.wait .tCS] }, g, k, bs, zs, ys, by simp, h1, h1, h2, rfl, rfl, h3, h3,
    h4, h5, h6, h6, h8, h9, h10, rfl, rfl⟩

theorem witness_PageReadWithoutGeometryFaults :
    (∃ s : State, s.geom = none ∧ s.seq = []) ∧
      ∃ (s : State) (loc : Nat), s.geom = none ∧ s.seq = [{ op := .cmdReadPage, line := 2, loc := loc }] :=
  ⟨⟨{ run 0#32 with geom := none }, by decide⟩,
    ⟨{ executing 0#32 0x01000000#32 [stand .cmdReadPage 2] with geom := none }, 0, by decide⟩⟩

theorem witness_ReadIdRunsToItsResult :
    ∃ (s : State) (k : Nat) (b0 b1 b2 b3 b4 : Byte) (ys : List Level) (zs : List Byte),
      s.seq = [] ∧ s.buf.wf = true ∧ patient s.params k = true ∧
        s.env.ryIn = List.replicate k false ++ true :: ys ∧ s.env.sampleIn = b0 :: b1 :: b2 :: b3 :: b4 :: zs :=
  ⟨giving 2 (answering (executing 0#32 0#32 []) [false, true] [0x98#8, 0xDC#8, 0x90#8, 0x26#8, 0x76#8]),
    1, 0x98#8, 0xDC#8, 0x90#8, 0x26#8, 0x76#8, [], [], by decide⟩

theorem witness_ReadIdFailsWhenNotReady :
    ∃ (s : State) (n : Nat) (ys : List Level),
      s.seq = [] ∧ s.params.ryTimeout = some n ∧ s.env.ryIn = List.replicate n false ++ ys :=
  ⟨giving 4 (answering (executing 0#32 0#32 []) [false, false, false, false] []), 4, [], by decide⟩

theorem witness_ReadPageFailsWhenNotReady :
    ∃ (s : State) (g : Geometry) (n : Nat) (ys : List Level),
      s.seq = [] ∧ s.pageCounter.toNat < 2 ^ 17 ∧ s.geom = some g ∧ s.bufOk = true ∧ s.params.ryTimeout = some n ∧
        s.env.ryIn = List.replicate n false ++ ys :=
  ⟨giving 1 (answering (executing 0x1FFFF#32 0x01000000#32 []) [false] []), geometry4096, 1, [], by decide⟩

theorem witness_CommandMicroStepFrame :
    (∃ s : State, s.sequencerOk = true ∧ s.phase = .run ∧ s.wstate = .execute ∧ decodeCommand s.curCmd = .readId ∧
      answers (exec .readId s) = true) ∧
    ∃ s : State, s.sequencerOk = true ∧ s.phase = .run ∧ s.wstate = .execute ∧ decodeCommand s.curCmd = .readPage ∧
      answers (exec .readPage s) = true :=
  ⟨⟨executing 0#32 0#32 [], by decide⟩, ⟨executing 0#32 0x01000000#32 [stand .cmdReadPage 1], by decide⟩⟩

theorem witness_WaitForCommandDequeues :
    (∃ (s : State) (w : Word) (q : List Word), s.phase = .run ∧ s.wstate = .waitForCommand ∧ s.cmdq = w :: q) ∧
      ∃ s : State, s.phase = .run ∧ s.wstate = .waitForCommand ∧ s.cmdq = [] :=
  ⟨⟨{ run 0#32 with cmdq := [0x01000000#32] }, 0x01000000#32, [], by decide⟩, ⟨run 0#32, by decide⟩⟩

theorem witness_PublishResultEnqueues :
    (∃ s : State, s.phase = .run ∧ s.wstate = .publishResult ∧ s.resq.length < s.params.resqDepth) ∧
      ∃ s : State, s.phase = .run ∧ s.wstate = .publishResult ∧ s.params.resqDepth ≤ s.resq.length :=
  ⟨⟨{ run 0#32 with wstate := .publishResult, resq := [5#32] }, by decide⟩,
    ⟨{ run 0#32 with wstate := .publishResult, resq := [5#32, 1#32] }, by decide⟩⟩

theorem witness_WorkerKeepsRequestsInFlight :
    ∃ s t : State, s.sequencerOk = true ∧ workerTurn s = .next t :=
  ⟨{ run 0#32 with cmdq := [0x02000000#32] }, _, by decide, rfl⟩

/-- At a push. -/
theorem witness_QueuesAreFifo :
    ∃ s t : State, s.sequencerOk = true ∧ s.controlOk = true ∧ s.env.nextInput.1 ≠ .hardReset ∧ step s = .next t ∧
      s.phase = .run ∧ s.flags.geomValid = true :=
  ⟨facing (run 0#32) (.port (.regWrite 0x00 0x01000000#32)), _, by decide, by decide, by decide, rfl, rfl, rfl⟩

theorem witness_PhasesAndFlagsAreSticky :
    ∃ s t : State, s.sequencerOk = true ∧ s.controlOk = true ∧ s.env.nextInput.1 ≠ .hardReset ∧ step s = .next t ∧
      s.phase = .halted ∧ s.flags.errGeometry = true ∧ s.flags.errIoWidth = true ∧ s.flags.errNotReady = true :=
  ⟨{ run 0#32 with phase := .halted, flags := ⟨false, true, true, true⟩ }, _, by decide, by decide, by decide, rfl, rfl,
    rfl, rfl, rfl⟩

theorem witness_CmdqPushEnqueuesOrHolds :
    (∃ s : State, s.cmdq.length < s.params.cmdqDepth) ∧ ∃ s : State, s.params.cmdqDepth ≤ s.cmdq.length :=
  ⟨⟨{ run 0#32 with cmdq := [1#32] }, by decide⟩, ⟨{ run 0#32 with cmdq := [1#32, 2#32] }, by decide⟩⟩

theorem witness_ResqPopDequeuesOrHolds :
    (∃ (s : State) (r : Word) (q : List Word), s.resq = r :: q) ∧ ∃ s : State, s.resq = [] :=
  ⟨⟨{ run 0#32 with resq := [5#32] }, 5#32, [], by decide⟩, ⟨run 0#32, by decide⟩⟩

theorem witness_RegistersReadTheirState :
    (∃ s : State, s.geom = none ∧ s.bootIdValid = false) ∧
      ∃ (s : State) (g : Geometry), s.geom = some g ∧ s.bootIdValid = true :=
  ⟨⟨State.resetFor (params none), by decide⟩, ⟨run 0#32, geometry4096, by decide⟩⟩

theorem witness_OutsideTheMapIsPortErr :
    0x24 ∉ [0x00, 0x04, 0x08, 0x0C, 0x10, 0x14, 0x18, 0x1C, 0x20] ∧
      0x20 ∈ [0x04, 0x08, 0x0C, 0x10, 0x14, 0x18, 0x1C, 0x20] ∧
      (run 0#32).params.bufSize ≤ 4352 ∧ 4351 < (run 0#32).params.bufSize := by decide

/-- Each clause: a transaction that completes and one that holds, taken up by an idle C and by one that holds it, one refused
by a busy C, and a turn of C in an exchange. -/
theorem witness_ControlSideTouchesOnlyTheQueues :
    (∃ s : State, s.controlBusy = false ∧ (portAccess (.regRead 0x08) s).isSome = true ∧
      portAccess (.regRead 0x04) s = none) ∧
    (∃ s : State, s.control.held = some (.regRead 0x04) ∧ (portAccess (.regRead 0x04) s).isSome = true) ∧
    (∃ s : State, s.control.held = some (.regRead 0x04) ∧ portAccess (.regRead 0x04) s = none) ∧
    (∃ s : State, s.controlBusy = true) ∧
    ∃ (s : State) (i : Input), s.controlOk = true ∧ i ≠ .worker ∧ i ≠ .hardReset ∧ answers (takeInput i s) = true :=
  ⟨⟨run 0#32, by decide⟩,
    ⟨{ run 0#32 with resq := [5#32], control := { Control.reset with held := some (.regRead 0x04) } }, by decide⟩,
    ⟨{ run 0#32 with control := { Control.reset with held := some (.regRead 0x04) } }, by decide⟩,
    ⟨serving (.serve .hostReadPage .pop) [], by decide⟩,
    ⟨serving (.serve .hostReadPage .push) [], .control, by decide⟩⟩

theorem witness_StartupIdentifiesTheChip : patient (params none) 7 = true ∧ patient (params (some 3)) 3 = true := by
  decide

theorem witness_StartupHaltsWhenNotReady : (params (some 0)).ryTimeout = some 1 := by decide

theorem witness_HardResetGivesTheResetValues :
    ∃ (s : State) (rest : List Input), s.env.inputs = .hardReset :: rest :=
  ⟨facing (run 0#32) .hardReset, [], rfl⟩

theorem witness_HaltedStaysHalted :
    ∃ s t : State, s.phase = .halted ∧ s.controlOk = true ∧ s.env.nextInput.1 ≠ .hardReset ∧ step s = .next t ∧
      s.env.nextInput.1 = .worker :=
  ⟨{ run 0#32 with phase := .halted }, _, by decide, by decide, by decide, rfl, by decide⟩

theorem witness_HostBytePushesItsCommand :
    ∃ s s' : State, ∃ w : Word, hostCommandWord .hostReadPage = some w ∧
      (∀ st, s.control.pos ≠ .serve .hostReadPage st) ∧ s.cmdq.length < s.params.cmdqDepth ∧
      s'.control.pos = .serve .hostReadPage .push ∧ s'.params.cmdqDepth ≤ s'.cmdq.length :=
  ⟨serving .idle [], { serving (.serve .hostReadPage .push) [] with cmdq := [1#32, 2#32] }, 0x01000000#32, rfl,
    fun _ => nofun, by decide, rfl, by decide⟩

/-- Each clause of HostBytePopsItsResult: an empty RESQ, a size at the end of the accepted range with a payload and
without one, and a size beyond it. -/
theorem witness_HostBytePopsItsResult :
    (∃ s : State, s.control.pos = .serve .hostReadId .pop ∧ s.resq = []) ∧
    (∃ s : State, s.control.pos = .serve .hostReadPage .pop ∧ s.resq = [4352#32] ∧
      hostAccepts s .hostReadPage (4352#32 : Word).toInt = true ∧ (hostPayload .hostReadPage []).isSome = true) ∧
    (∃ s : State, s.control.pos = .serve .hostResetCounter .pop ∧ s.resq = [1#32] ∧
      hostAccepts s .hostResetCounter (1#32 : Word).toInt = true ∧ hostPayload .hostResetCounter [] = none) ∧
    (∃ s : State, s.control.pos = .serve .hostReadId .pop ∧ s.resq = [6#32] ∧
      hostAccepts s .hostReadId (6#32 : Word).toInt = false) :=
  ⟨⟨serving (.serve .hostReadId .pop) [], by decide⟩, ⟨serving (.serve .hostReadPage .pop) [4352#32], by decide⟩,
    ⟨serving (.serve .hostResetCounter .pop) [1#32], by decide⟩, ⟨serving (.serve .hostReadId .pop) [6#32], by decide⟩⟩

theorem witness_HostByteReportsThePayload :
    ∃ (s : State) (rep : Report) (size : Nat), hostPayload .hostReadId (s.buf.readBytes 0 size) = some rep ∧
      s.control.pos = .serve .hostReadId (.copy size 0 []) ∧ 0 < size ∧ size ≤ s.params.bufSize :=
  ⟨serving (.serve .hostReadId (.copy 5 0 [])) [], .idBytes [0x00#8, 0x00#8, 0x00#8, 0x00#8, 0x00#8], 5, by decide⟩

theorem witness_DiscardedBytesReachNoQueue :
    (∃ (s : State) (bs : List Byte), s.control.pos = .idle ∧ s.control.held = none ∧ bs.length < 3 ∧
      s.control.serialIn = 0x33#8 :: bs) ∧
    (∃ (s : State) (b : Byte) (rest : List Byte), s.control.pos = .idle ∧ s.control.held = none ∧
      s.control.serialIn = b :: rest ∧ ¬ (0x30 ≤ b.toNat ∧ b.toNat ≤ 0x35)) ∧
    ∃ s : State, s.control.pos = .idle ∧ s.control.held = none ∧ s.control.serialIn = [] :=
  ⟨⟨{ run 0#32 with control := { Control.reset with pos := .idle, serialIn := [0x33#8, 0x34#8, 0x12#8] } },
      [0x34#8, 0x12#8], by decide⟩,
    ⟨{ run 0#32 with control := { Control.reset with pos := .idle, serialIn := [0x36#8] } }, 0x36#8, [], by decide⟩,
    ⟨serving .idle [], by decide⟩⟩

theorem witness_ControlSideReadsTheGeometry :
    (∃ s : State, s.control.held = none ∧ s.control.pos = .bootPoll ∧ s.phase = .init) ∧
    (∃ s : State, s.control.held = none ∧ s.control.pos = .bootPoll ∧ s.phase = .halted) ∧
    (∃ (s : State) (g : Geometry), s.control.held = none ∧ s.control.pos = .bootPoll ∧ s.phase = .run ∧
      s.geom = some g) ∧
    ∃ s : State, s.control.held = none ∧ s.control.pos = .stopped :=
  ⟨⟨State.resetFor (params none), by decide⟩, ⟨{ run 0#32 with phase := .halted }, by decide⟩,
    ⟨run 0#32, geometry4096, by decide⟩, ⟨serving .stopped [], by decide⟩⟩

/-- Each clause of StepRunsTheFetchedInstruction. -/
theorem witness_StepRunsTheFetchedInstruction :
    (∃ (s : State) (e : Env), s.env.nextInput = (.worker, e) ∧ s.phase = .run ∧ s.wstate = .execute ∧
      busOpcode s.seq = none) ∧
    (∃ (s : State) (e : Env) (b : Byte) (i : Instr), s.env.nextInput = (.worker, e) ∧ s.phase = .init ∧
      busOpcode s.seq = some b ∧ decode (.nandcmd b) = some i) ∧
    (∃ (s : State) (e : Env) (b : Byte) (i : Instr), s.env.nextInput = (.worker, e) ∧ s.phase = .run ∧
      s.wstate = .execute ∧ busOpcode s.seq = some b ∧ decode (.nandcmd b) = some i) ∧
    (∃ (s : State) (e : Env) (i : Instr) (rest : List Byte), s.env.nextInput = (.control, e) ∧
      s.control.held = none ∧ s.control.pos = .idle ∧ fetchSerial s.control.serialIn = .complete i rest) ∧
    ∃ (s : State) (e : Env) (i : Instr) (st : Stage), s.env.nextInput = (.control, e) ∧ s.control.held = none ∧
      s.control.pos = .serve i st :=
  ⟨⟨executing 0#32 0x02000000#32 [], Env.reset, by decide⟩,
    ⟨State.resetFor (params none), Env.reset, 0xFF#8, .nandReset, by decide⟩,
    ⟨executing 0#32 0x01000000#32 [stand (.assertCommand 0x30#8) 1, stand (.readPage 0#32 4352) 4], Env.reset, 0x30#8,
      .nandReadConfirm, by decide⟩,
    ⟨facing { run 0#32 with control := { Control.reset with pos := .idle, serialIn := [0x31#8, 0x32#8] } } .control,
      Env.reset, .hostReadPage, [0x32#8], by decide⟩,
    ⟨facing (serving (.serve .hostReadPage .pop) []) .control, Env.reset, .hostReadPage, .pop, by decide⟩⟩

theorem witness_EveryInstructionAnswersNext :
    ∃ s : State, s.seq = [] ∧ s.geom.isSome = true := ⟨run 0#32, by decide⟩

/-- At a stack of depth four: the reset of a page read inside READPAGE. -/
theorem witness_CallsNestAtMostFourDeep :
    ∃ s : State, s.sequencerOk = true ∧ s.seq.length = 4 :=
  ⟨executing 0#32 0x01000000#32
      [stand (.assertCommand 0xFF#8) 0, stand .reset 1, stand (.readPage 0#32 4352) 1,
        { op := .cmdReadPage, line := 3, loc := 4352 }], by decide⟩

theorem witness_StepKeepsTheBufferCanonical :
    ∃ s : State, s.bufOk = true ∧ answers (step s) = true :=
  ⟨{ executing 0#32 0x01000000#32 [stand .cmdReadPage 1] with buf := [(0, 0xAB#8)] }, by decide⟩

/-- Inside READID, at a store. -/
theorem witness_StepKeepsTheInvariant :
    ∃ s : State, s.inv = true ∧ answers (step s) = true :=
  ⟨{ answering (executing 0#32 0#32
        [stand (.readBytes 5 .buf) 12, stand (.readId .buf) 3, stand .cmdReadId 1]) [] [0x98#8] with
      pins := { Pins.reset true with cen := false, ren := false } }, by decide⟩

theorem witness_NoStepFaultsOrRefuses : ∃ s : State, s.inv = true := ⟨State.resetFor (params none), by decide⟩

end Sys2Proof.Tests
end

section
/-! PROOFS. The OPEN parameters of R7 and R8, the timing parameters of R128 and R252, and the rounding of a wait. -/

namespace Sys2Proof

open Sys2Proof.Machine

/-! ### The integer parameters -/

theorem Params.one_le_cmdqDepth (p : Params) : 1 ≤ p.cmdqDepth := Nat.le_add_left ..

theorem Params.one_le_resqDepth (p : Params) : 1 ≤ p.resqDepth := Nat.le_add_left ..

theorem Params.le_bufSize (p : Params) : 4352 ≤ p.bufSize := Nat.le_add_left ..

theorem Params.one_le_of_ryTimeout {p : Params} {n : Nat} (h : p.ryTimeout = some n) : 1 ≤ n := by
  obtain ⟨m, -, rfl⟩ := Option.map_eq_some_iff.mp h
  exact Nat.le_add_left ..

/-! ### The timing parameters -/

theorem Timing.clk_pos (t : Timing) : 0 < t.clk := t.clkNs.property

/-- A `>=` of R252 holds because the `NNReal` excess is not negative, a `>` because the `PosReal` excess is positive. -/
theorem Timing.timingOk (t : Timing) : TimingOk t.bound t.clk :=
  have hCS : 20 ≤ t.bound .tCS := le_add_of_nonneg_right t.csExtra.coe_nonneg
  have hWP : 12 ≤ t.bound .tWP := le_add_of_nonneg_right t.wpExtra.coe_nonneg
  have hCLH : 12 ≤ t.bound .tCLH := le_add_of_nonneg_right t.clhExtra.coe_nonneg
  have hALH : t.bound .tCLH ≤ t.bound .tALH := le_add_of_nonneg_right t.alhExtra.coe_nonneg
  have h5CS : t.bound .tCS < t.bound .t5CS := lt_add_of_pos_right _ t.cs5Extra.property
  have h5WP : t.bound .tWP < t.bound .t5WP := lt_add_of_pos_right _ t.wp5Extra.property
  have h5WH : t.bound .tALH < t.bound .t5WH := lt_add_of_pos_right _ t.wh5Extra.property
  have hRST : 600000 ≤ t.bound .tRST := le_add_of_nonneg_right t.rstExtra.coe_nonneg
  ⟨hCS, hWP, hCLH, hALH, h5CS, t.ds5.property, h5WP, h5WH, t.rea.property, t.reh.coe_nonneg, hRST, t.rsettle.property,
    t.clk_pos⟩

/-- Each excess is the difference of a parameter and its lower bound, which the constraint between them makes an `NNReal`
or a `PosReal`. -/
theorem Timing.exists_of_timingOk {bound : TimeParam → ℝ} {clk : ℝ} (h : TimingOk bound clk) :
    ∃ t : Timing, t.bound = bound ∧ t.clk = clk := by
  obtain ⟨hCS, hWP, hCLH, hALH, h5CS, h5DS, h5WP, h5WH, hREA, hREH, hRST, hRSETTLE, hclk⟩ := h
  refine ⟨{ csExtra := .mk (bound .tCS - 20) (sub_nonneg.mpr hCS)
            wpExtra := .mk (bound .tWP - 12) (sub_nonneg.mpr hWP)
            clhExtra := .mk (bound .tCLH - 12) (sub_nonneg.mpr hCLH)
            alhExtra := .mk (bound .tALH - bound .tCLH) (sub_nonneg.mpr hALH)
            cs5Extra := ⟨bound .t5CS - bound .tCS, sub_pos.mpr h5CS⟩
            ds5 := ⟨bound .t5DS, h5DS⟩
            wp5Extra := ⟨bound .t5WP - bound .tWP, sub_pos.mpr h5WP⟩
            wh5Extra := ⟨bound .t5WH - bound .tALH, sub_pos.mpr h5WH⟩
            rea := ⟨bound .tREA, hREA⟩
            reh := .mk (bound .tREH) hREH
            rstExtra := .mk (bound .tRST - 600000) (sub_nonneg.mpr hRST)
            rsettle := ⟨bound .tRSETTLE, hRSETTLE⟩
            clkNs := ⟨clk, hclk⟩ }, funext fun p => ?_, rfl⟩
  cases p <;> simp [Timing.bound]

/-! ### The rounding of a wait -/

/-- No wait has a negative lower bound: the orderings of R252 lead each parameter back to a number that is not negative. -/
theorem Timing.bound_nonneg (t : Timing) (p : TimeParam) : 0 ≤ t.bound p := by
  obtain ⟨hCS, hWP, hCLH, hALH, h5CS, h5DS, h5WP, h5WH, hREA, hREH, hRST, hRSETTLE, -⟩ := t.timingOk
  cases p <;> linarith

theorem Timing.bound_le_minCycles_mul_clk (t : Timing) (p : TimeParam) : t.bound p ≤ t.minCycles p * t.clk :=
  (div_le_iff₀ t.clk_pos).mp (Nat.le_ceil _)

theorem Timing.minCycles_mul_clk_lt (t : Timing) (p : TimeParam) : t.minCycles p * t.clk < t.bound p + t.clk := by
  have hceil : (t.minCycles p : ℝ) < t.bound p / t.clk + 1 :=
    Nat.ceil_lt_add_one (div_nonneg (t.bound_nonneg p) t.clk_pos.le)
  calc t.minCycles p * t.clk < (t.bound p / t.clk + 1) * t.clk := mul_lt_mul_of_pos_right hceil t.clk_pos
    _ = t.bound p + t.clk := by rw [add_one_mul, div_mul_cancel₀ _ t.clk_pos.ne']

/-- Settles O11: the excesses of `Params` and `Timing` are the slack of their constraints, and `minCycles` is a ceiling. -/
theorem parametersMeetTheirConstraints : Obligations.ParametersMeetTheirConstraints :=
  ⟨fun p => ⟨p.one_le_cmdqDepth, p.one_le_resqDepth, p.le_bufSize, fun _ => Params.one_le_of_ryTimeout⟩,
    Timing.timingOk,
    fun _ _ => Timing.exists_of_timingOk,
    fun t p => ⟨t.bound_le_minCycles_mul_clk p, t.minCycles_mul_clk_lt p⟩⟩

end Sys2Proof
end

section
/-! PROOFS. Which operation calls which (R173), how deep calls nest, and what an operation's place in the call graph says of
its lines (R27, R32). -/

namespace Sys2Proof.Machine

/-! ### The call graph -/

/-- The call graph of the operations (R140, R142, R148, R165, R166, R242). -/
inductive Op.Calls : Op → Op → Prop
  | resetCommand : Calls .reset (.assertCommand 0xFF#8)
  | idCommand (d : Dest) : Calls (.readId d) (.assertCommand 0x90#8)
  | idAddress (d : Dest) : Calls (.readId d) (.assertSingleAddressByte 0x00#8)
  | idBytes (d : Dest) : Calls (.readId d) (.readBytes 5 d)
  | pageReset (p : Word) (n : Nat) : Calls (.readPage p n) .reset
  | pageCommand (p : Word) (n : Nat) (b : Byte) : Calls (.readPage p n) (.assertCommand b)
  | pageAddress (p : Word) (n : Nat) : Calls (.readPage p n) (.assertRowColumnAddress p 0#32)
  | pageBytes (p : Word) (n : Nat) : Calls (.readPage p n) (.readBytes n .buf)
  | commandId : Calls .cmdReadId (.readId .buf)
  | commandPage (p : Word) (n : Nat) : Calls .cmdReadPage (.readPage p n)
  | startupReset : Calls .startup .reset
  | startupId : Calls .startup (.readId .bootId)

/-- A call on a line of an operation is an edge of the graph. -/
theorem Op.calls_of_mem_body {o o' : Op} (h : .call o' ∈ o.body) : o.Calls o' := by
  cases o <;> simp [Op.body, latchCycle, addressCycle, addressBytes] at h
  case reset => subst h; exact .resetCommand
  case readId d => obtain rfl | rfl | rfl := h <;> constructor
  case readPage p n => obtain rfl | rfl | rfl | rfl | rfl := h <;> constructor
  case cmdReadId => subst h; exact .commandId
  case startup => obtain rfl | rfl := h <;> constructor

/-- READPAGE alone computes the operands of its call (R166 lines 3 and 4). -/
theorem Op.eq_cmdReadPage_of_beginRead {o : Op} (h : .beginRead ∈ o.body) : o = .cmdReadPage := by
  cases o <;> simp [Op.body, latchCycle, addressCycle, addressBytes] at h
  rfl

/-- A frame was called by the one below it only along an edge of the graph. -/
theorem calls_of_calledBy {upper lower : Frame} (h : calledBy upper lower = true) : lower.op.Calls upper.op := by
  simp only [calledBy, Bool.and_eq_true] at h
  obtain ⟨-, h⟩ := h
  split at h
  · rename_i o hline
    rw [of_decide_eq_true h]
    exact Op.calls_of_mem_body (List.mem_of_getElem? hline)
  · rename_i hline
    split at h
    · rename_i p n hop
      rw [Op.eq_cmdReadPage_of_beginRead (List.mem_of_getElem? hline), hop]
      exact .commandPage p n
    · cases h
  · cases h

/-- What calls along an edge keep, a well-linked stack has at its top when it has it at its bottom. -/
theorem head_of_outermost {P : Op → Prop} (hcalls : ∀ o o', o.Calls o' → P o → P o') :
    ∀ {f : Frame} {fs : List Frame} {o : Op}, linked (f :: fs) = true → outermostOp (f :: fs) = some o → P o → P f.op
  | f, [], o, _, hout, hP => by
    cases hout; exact hP
  | f, g :: fs, o, hlinked, hout, hP => by
    simp only [linked, Bool.and_eq_true] at hlinked
    obtain ⟨hcalled, hlinked⟩ := hlinked
    have hg : P g.op := head_of_outermost hcalls hlinked (by simpa [outermostOp] using hout) hP
    exact hcalls _ _ (calls_of_calledBy hcalled) hg

/-! ### Depth -/

/-- The most frames a stack has from an operation up. -/
def Op.height : Op → Nat
  | .assertCommand _ | .assertSingleAddressByte _ | .assertRowColumnAddress _ _ | .readBytes _ _ => 1
  | .reset | .readId _ => 2
  | .readPage _ _ | .cmdReadId | .startup => 3
  | .cmdReadPage => 4

theorem Op.height_lt_of_calls {o o' : Op} (h : o.Calls o') : o'.height < o.height := by
  cases h <;> simp [Op.height]

theorem Op.height_pos (o : Op) : 1 ≤ o.height := by cases o <;> simp [Op.height]

theorem Op.height_le (o : Op) : o.height ≤ 4 := by cases o <;> simp [Op.height]

/-- The height of the innermost operation bounds how many callers it has. -/
theorem height_add_length_le : ∀ (f : Frame) (fs : List Frame), linked (f :: fs) = true → f.op.height + fs.length ≤ 4
  | f, [], _ => f.op.height_le
  | f, g :: fs, h => by
    simp only [linked, Bool.and_eq_true] at h
    obtain ⟨hcalled, hlinked⟩ := h
    have hlt := Op.height_lt_of_calls (calls_of_calledBy hcalled)
    have ih := height_add_length_le g fs hlinked
    simp only [List.length_cons]
    omega

theorem State.linked_of_sequencerOk {s : State} (h : s.sequencerOk = true) : linked s.seq = true := by
  simp only [State.sequencerOk, Bool.and_eq_true] at h
  obtain ⟨⟨hlinked, -⟩, -⟩ := h
  exact hlinked

/-- Settles O56: each call goes to an operation of smaller height, and no height is above four. -/
theorem callsNestAtMostFourDeep : Obligations.CallsNestAtMostFourDeep := fun s hok => by
  have hlinked := s.linked_of_sequencerOk hok
  rcases hseq : s.seq with _ | ⟨f, fs⟩
  · exact Nat.zero_le 4
  · have := height_add_length_le f fs (hseq ▸ hlinked)
    have := f.op.height_pos
    simp only [List.length_cons]
    omega

end Sys2Proof.Machine
end

section
/-! PROOFS. The control port: the registers that read without a side effect, STATUS bit by bit, and the two queue
registers (R41 to R47). -/

namespace Sys2Proof.Machine

/-! ### Reading a register -/

/-- A register of the map other than RESQ_POP is read without a side effect (R41). -/
theorem portAccess_regRead {s : State} {off : Nat} {w : Word} (hoff : off ≠ 0x04) (h : s.register off = some w) :
    portAccess (.regRead off) s = some (.word w, s) := by
  simp [portAccess, hoff, h]

/-- BOOT_ID0 packs the first four bytes little-endian (R47). -/
theorem IdBytes.word0_eq (id : IdBytes) :
    id.word0 =
      BitVec.ofNat 32 (id.b0.toNat + 2 ^ 8 * id.b1.toNat + 2 ^ 16 * id.b2.toNat + 2 ^ 24 * id.b3.toNat) := by
  apply BitVec.eq_of_toNat_eq
  have h0 := id.b0.isLt
  have h1 := id.b1.isLt
  have h2 := id.b2.isLt
  have h3 := id.b3.isLt
  simp only [IdBytes.word0, BitVec.toNat_append, BitVec.toNat_ofNat]
  rw [← Nat.shiftLeft_add_eq_or_of_lt h2, ← Nat.shiftLeft_add_eq_or_of_lt h1, ← Nat.shiftLeft_add_eq_or_of_lt h0]
  simp only [Nat.shiftLeft_eq]
  omega

/-- BOOT_ID1 is the fifth byte, extended by zeros (R47). -/
theorem IdBytes.word1_eq (id : IdBytes) : id.word1 = BitVec.ofNat 32 id.b4.toNat := by
  simp [IdBytes.word1, BitVec.ofNat_toNat]

/-- Settles O40: each of these registers is read through `State.register`, which leaves the state alone. -/
theorem registersReadTheirState : Obligations.RegistersReadTheirState := fun s =>
  ⟨fun h => ⟨portAccess_regRead (by decide) (by simp [State.register, h]),
      portAccess_regRead (by decide) (by simp [State.register, h]),
      portAccess_regRead (by decide) (by simp [State.register, h])⟩,
    fun g h => ⟨portAccess_regRead (by decide) (by simp [State.register, h]),
      portAccess_regRead (by decide) (by simp [State.register, h]),
      portAccess_regRead (by decide) (by simp [State.register, h])⟩,
    portAccess_regRead (by decide) rfl,
    fun h => ⟨portAccess_regRead (by decide) (by simp [State.register, h]),
      portAccess_regRead (by decide) (by simp [State.register, h])⟩,
    fun h => ⟨portAccess_regRead (by decide) (by simp [State.register, h, IdBytes.word0_eq]),
      portAccess_regRead (by decide) (by simp [State.register, h, IdBytes.word1_eq])⟩,
    portAccess_regRead (by decide) rfl⟩

/-! ### STATUS -/

/-- Bit `k` of a packed list is its `k`-th entry, and 0 past its end. -/
theorem testBit_packBits : ∀ (bs : List Bool) (k : Nat), (packBits bs).testBit k = bs.getD k false
  | [], k => by simp [packBits]
  | b :: bs, 0 => by cases b <;> simp [packBits]
  | b :: bs, k + 1 => by
    have hhalf : (b.toNat + 2 * packBits bs) / 2 = packBits bs := by
      have := b.toNat_lt
      omega
    simp [packBits, Nat.testBit_succ, hhalf, testBit_packBits bs k]

/-- A bit of STATUS is the entry of the list of its fields (R44). -/
theorem State.getLsbD_status (s : State) (k : Nat) : s.status.getLsbD k = s.statusBits.getD k false := by
  rw [State.status, BitVec.getLsbD_ofNat, testBit_packBits]
  by_cases hk : k < 32
  · simp [hk]
  · have hlen : s.statusBits.length ≤ k := by simp only [State.statusBits, List.length_cons, List.length_nil]; omega
    simp [hk, hlen]

/-- BUSY covers INIT, and RUN outside WaitForCommand (R44). -/
theorem State.busy_eq (s : State) :
    s.busy = decide (s.phase = .init ∨ (s.phase = .run ∧ s.wstate ≠ .waitForCommand)) := by
  unfold State.busy
  cases s.phase <;> cases s.wstate <;> rfl

/-- Settles O39: bit by bit through `State.getLsbD_status`. -/
theorem statusBitsAreTheFields : Obligations.StatusBitsAreTheFields := fun s =>
  have bit (k : Nat) : s.status.getLsbD k = s.statusBits.getD k false := s.getLsbD_status k
  have hvalid : (!s.resq.isEmpty) = decide (1 ≤ s.resq.length) := by cases s.resq <;> simp
  ⟨portAccess_regRead (by decide) rfl, bit 0, bit 1, bit 2, bit 3, bit 4, bit 5, bit 6,
    (bit 7).trans hvalid, (bit 8).trans s.busy_eq,
    fun k hk => (bit k).trans (List.getD_eq_default _ _ hk)⟩

/-! ### CMDQ_PUSH and RESQ_POP -/

/-- Settles O37: CMDQ_PUSH is `Enq(CMDQ, v)`, with no look at the phase. -/
theorem cmdqPushEnqueuesOrHolds : Obligations.CmdqPushEnqueuesOrHolds := fun _ v =>
  ⟨fun hroom => by simp [portAccess, enq_room _ _ v hroom], fun hfull => by simp [portAccess, enq_full _ _ v hfull]⟩

/-- Settles O38: RESQ_POP is `Deq(RESQ)`. -/
theorem resqPopDequeuesOrHolds : Obligations.ResqPopDequeuesOrHolds := fun _ =>
  ⟨fun _ _ h => by simp [portAccess, h], fun h => by simp [portAccess, h]⟩

end Sys2Proof.Machine
end

section
/-! PROOFS. Hard reset (R52, R240), and a page read without a geometry (R28). -/

namespace Sys2Proof.Machine

/-! ### Reset -/

theorem settle_startup : settle [Op.startup.start] = startupSeq := rfl

/-- STATUS after reset: BUSY alone, whatever the depth of CMDQ (R52). -/
theorem State.status_resetFor (p : Params) : (State.resetFor p).status = 0x00000100#32 := by
  have hbits : (State.resetFor p).statusBits = [false, false, false, false, false, false, false, false, true] := rfl
  rw [State.status, hbits]
  rfl

/-- The reset state has every value of R52. -/
theorem State.atReset_resetFor (p : Params) : (State.resetFor p).atReset :=
  ⟨rfl, rfl, rfl, rfl, rfl, rfl, rfl, rfl, rfl, rfl, rfl, rfl, rfl, rfl, rfl, rfl, rfl, rfl, rfl, rfl, rfl, rfl,
    fun _ => rfl, rfl, State.status_resetFor p⟩

/-- So has the state after a hard reset: what survives of the control side and of the environment is in no row. -/
theorem State.atReset_hardReset (s : State) : s.hardReset.atReset := State.atReset_resetFor s.params

/-- Settles O45: the step that takes the hard reset answers `State.hardReset`. -/
theorem hardResetGivesTheResetValues : Obligations.HardResetGivesTheResetValues :=
  ⟨State.atReset_resetFor _, fun s rest h =>
    ⟨_, step_input s .hardReset rest h, State.atReset_hardReset _, rfl, rfl⟩⟩

/-- The configuration is copied from the parameters; every other clause looks only at values that reset fixes. -/
theorem State.inv_resetFor (p : Params) : (State.resetFor p).inv = true := by
  have hseq : (State.resetFor p).sequencerOk = true := rfl
  have hcontrol : (State.resetFor p).controlOk = true := rfl
  have hbuf : (State.resetFor p).bufOk = true := rfl
  have hqueues : (State.resetFor p).queuesOk = true := rfl
  have hconfig : (State.resetFor p).configOk = true := by
    simp [State.configOk, State.resetFor, Pins.reset]
  have hgeom : (State.resetFor p).geomOk = true := rfl
  have hcounter : (State.resetFor p).counterOk = true := rfl
  have hstores : (State.resetFor p).storesOk = true := rfl
  have htimeout : (State.resetFor p).timeoutOk = true := rfl
  have hphase : (State.resetFor p).phaseOk = true := rfl
  have hpins : (State.resetFor p).pinsOk = true := rfl
  simp only [State.inv, hseq, hcontrol, hbuf, hqueues, hconfig, hgeom, hcounter, hstores, htimeout, hphase, hpins,
    Bool.and_self]

/-- Settles O58. -/
theorem invariantHoldsAtReset : Obligations.InvariantHoldsAtReset :=
  ⟨State.inv_resetFor _, State.inv_resetFor⟩

/-! ### A page read without a geometry -/

/-- With no geometry the page-read engine does not start (R28). -/
theorem State.pageRead_geometryAbsent {s : State} (b : Byte) (line : Nat) (hgeom : s.geom = none) (hseq : s.seq = []) :
    s.pageRead b line = .fault .geometryAbsent := by
  simp [State.pageRead, hgeom, hseq, busOpcode]

/-- Settles O26: READPAGE's line 3 and both starts of the page-read engine ask for the geometry first. -/
theorem pageReadWithoutGeometryFaults : Obligations.PageReadWithoutGeometryFaults := fun s hgeom =>
  ⟨fun hseq => ⟨State.pageRead_geometryAbsent _ _ hgeom hseq, State.pageRead_geometryAbsent _ _ hgeom hseq⟩,
    fun loc hseq => by
      have hmicro : microStep s = .fault .geometryAbsent := by
        rw [microStep_at s _ _ .beginRead hseq rfl]
        simp [runMicro, hgeom]
      have hinside : exec .readPage s = microStep s := execReadPage_inside s (by rw [hseq]; rfl)
      rw [hinside, hmicro]⟩

end Sys2Proof.Machine
end

section
/-! PROOFS. What a turn of C or an input from outside may change (R60, R204), and when a transaction completes or is held
(R40). -/

namespace Sys2Proof.Machine

/-! ### The control side's frame -/

/-- `t` differs from `s` only in the two queues, the control side's own state and the count of free values. -/
def ControlOnly (s t : State) : Prop :=
  t = { s with cmdq := t.cmdq, resq := t.resq, control := t.control
               env := { s.env with freeIndex := t.env.freeIndex } }

theorem ControlOnly.refl (s : State) : ControlOnly s s := rfl

theorem ControlOnly.with_control {s t : State} (h : ControlOnly s t) (c : Control) :
    ControlOnly s { t with control := c } := by
  have := congrArg (fun u : State => { u with control := c }) h
  exact this

/-- A change of the control side beforehand makes no difference. -/
theorem ControlOnly.of_control {s t : State} {c : Control} (h : ControlOnly { s with control := c } t) :
    ControlOnly s t := h

theorem ControlOnly.transact {s t : State} {x : Txn} {r : Response} (h : s.transact x = some (r, t)) :
    ControlOnly s t := by
  rw [s.transact_frame t x r h]
  rfl

theorem ControlOnly.exchange (s : State) (i : Instr) (w : Word) (accept : Int → Bool)
    (payload : Option (List Byte → Report)) : ControlOnly s (s.exchange i w accept payload) := by
  obtain ⟨cq, rq, c, n, h⟩ := s.exchange_frame i w accept payload
  rw [h]
  rfl

theorem ControlOnly.perform (s : State) (x : Txn) : ControlOnly s (s.perform x) := by
  obtain ⟨cq, rq, c, h⟩ := s.perform_frame x
  rw [h]
  rfl

theorem ControlOnly.bootPoll (s : State) : ControlOnly s s.bootPoll := by
  unfold State.bootPoll
  split
  · rename_i w u hread
    have hu := ControlOnly.transact hread
    split_ifs
    · exact hu.with_control _
    · exact hu.with_control _
    · exact hu
  · exact .refl s

theorem ControlOnly.bootRead (s : State) (off : Nat) (upd : Geometry → Word → Geometry) (next : CtlPos) :
    ControlOnly s (s.bootRead off upd next) := by
  unfold State.bootRead
  split
  · rename_i w u hread
    exact (ControlOnly.transact hread).with_control _
  · exact .refl s

theorem ControlOnly.portTurn (s : State) (x : Txn) : ControlOnly s (portTurn x s) := by
  unfold Machine.portTurn
  split_ifs
  · exact .refl s
  · exact .perform s x

theorem ControlOnly.endArgWait (s : State) : ControlOnly s s.endArgWait := by
  unfold State.endArgWait
  split_ifs
  · rfl
  · exact .refl s

/-! ### The host bytes -/

/-- The instructions of format SERIAL8 (R100). -/
def isHostByte (i : Instr) : Bool := (encode i).format == .serial8

/-- Nothing else is fetched from the serial link. -/
theorem isHostByte_of_fetchSerial {bs rest : List Byte} {i : Instr} (h : fetchSerial bs = .complete i rest) :
    isHostByte i = true := by
  revert h
  fun_cases fetchSerial bs <;> intro h <;> cases h <;> rfl

/-- The meaning of a host byte is a step of C (R193 to R198). -/
theorem ControlOnly.exec {i : Instr} {s t : State} (hi : isHostByte i = true) (h : exec i s = .next t) :
    ControlOnly s t := by
  cases i <;> try cases hi
  case hostGetDrive =>
    simp only [Machine.exec, execHostGetDrive] at h
    split at h <;> cases h
    · rename_i w u hread
      exact (ControlOnly.transact hread).with_control _
    · exact .refl s
  case hostGetInfo => cases h; rfl
  all_goals cases h; exact .exchange s _ _ _ _

/-- A turn of C is a step of its own, or the step of the instruction it serves or fetches (R191). -/
theorem controlTurn_cases {s t : State} (h : controlTurn s = .next t) :
    ControlOnly s t ∨
      (∃ i st, s.control.pos = .serve i st ∧ exec i s = .next t) ∨
      (∃ i rest, isHostByte i = true ∧ exec i { s with control := { s.control with serialIn := rest } } = .next t) := by
  unfold controlTurn at h
  split at h
  · cases h; exact .inl (.perform s _)
  · split at h
    case h_1 => cases h; exact .inl (.refl s)
    case h_2 => cases h; exact .inl (.bootPoll s)
    case h_6 i st hpos => exact .inr (.inl ⟨i, st, hpos, h⟩)
    case h_7 =>
      split at h
      case h_4 i rest hfetch => exact .inr (.inr ⟨i, rest, isHostByte_of_fetchSerial hfetch, h⟩)
      all_goals cases h; exact .inl rfl
    all_goals cases h; exact .inl (.bootRead s _ _ _)

/-- Neither a turn of C nor an input from outside, but a hard reset, touches more than the control side's own (R60). -/
theorem ControlOnly.takeInput {s t : State} {i : Input} (hok : s.controlOk = true) (hw : i ≠ .worker)
    (hr : i ≠ .hardReset) (h : takeInput i s = .next t) : ControlOnly s t := by
  cases i with
  | worker => exact absurd rfl hw
  | hardReset => exact absurd rfl hr
  | port x => cases h; exact .portTurn s x
  | hostByte b => cases h; rfl
  | argTimeout => cases h; exact .endArgWait s
  | control =>
    obtain hc | ⟨i, st, hpos, hexec⟩ | ⟨i, rest, hi, hexec⟩ := controlTurn_cases h
    · exact hc
    · have hi : isHostByte i = true := by rwa [State.controlOk, hpos] at hok
      exact .exec hi hexec
    · exact (ControlOnly.exec hi hexec).of_control

/-! ### A transaction completes or is held -/

theorem State.held_of_not_busy {s : State} (h : s.controlBusy = false) : s.control.held = none := by
  simp only [State.controlBusy, Bool.or_eq_false_iff] at h
  obtain ⟨hheld, -⟩ := h
  simpa using hheld

/-- A transaction that completes is no longer held, and its response is recorded (R40). -/
theorem State.perform_of_some {s u : State} {x : Txn} {r : Response} (h : portAccess x s = some (r, u)) :
    s.perform x =
      { u with control := { s.control with held := none, responses := s.control.responses ++ [(x, r)] } } := by
  have hcontrol : u.control = s.control := by rw [portAccess_frame x s u r h]
  simp [State.perform, State.transact, h, hcontrol]

/-- A transaction that does not complete is held (R40, R70, R71). -/
theorem State.perform_of_none {s : State} {x : Txn} (h : portAccess x s = none) :
    s.perform x = { s with control := { s.control with held := some x } } := by
  simp [State.perform, State.transact, h]

/-- Settles O42: `State.perform` twice, the busy port, and the frame of every turn and input. -/
theorem controlSideTouchesOnlyTheQueues : Obligations.ControlSideTouchesOnlyTheQueues := by
  refine ⟨fun s x hbusy => ?_, fun s x hheld => ?_, fun s x hbusy => ?_, fun s t i hok hw hr h => ?_⟩
  · have hturn : takeInput (.port x) s = .next (s.perform x) := by simp [takeInput, portTurn, hbusy]
    rw [hturn]
    refine ⟨fun r u hdone => ?_, fun hhold => ?_⟩
    · rw [State.perform_of_some hdone, ← State.held_of_not_busy hbusy]
    · rw [State.perform_of_none hhold]
  · have hturn : takeInput .control s = .next (s.perform x) := controlTurn_held s x hheld
    rw [hturn]
    refine ⟨fun r u hdone => ?_, fun hhold => ?_⟩
    · rw [State.perform_of_some hdone]
    · rw [State.perform_of_none hhold, ← hheld]
  · simp [takeInput, portTurn, hbusy]
  · exact ControlOnly.takeInput hok hw hr h

end Sys2Proof.Machine
end

section
/-! PROOFS. What a step of W is: a line of the worker loop, a micro-step or a command of one step (R160, R174); and BUF at
every step of the machine (R38). -/

namespace Sys2Proof.Machine

/-! ### The meanings of W's instructions -/

/-- A command in progress goes on; one that is not starts with a stack of its own. -/
theorem State.commandEntry_eq (s : State) (o : Op) : ∃ q, s.commandEntry o = { s with seq := q } := by
  unfold State.commandEntry
  split_ifs
  · exact ⟨s.seq, rfl⟩
  · exact ⟨_, rfl⟩

theorem State.busEntry_eq (s : State) (b : Byte) (frames : List Frame) :
    ∃ q, s.busEntry b frames = { s with seq := q } := by
  unfold State.busEntry
  split_ifs
  · exact ⟨s.seq, rfl⟩
  · exact ⟨_, rfl⟩

/-- The page-read engine takes a micro-step, once it has its operands. -/
theorem State.pageRead_next {s t : State} {b : Byte} {line : Nat} (h : s.pageRead b line = .next t) :
    ∃ q, microStep { s with seq := q } = .next t := by
  unfold State.pageRead at h
  split_ifs at h
  · exact ⟨s.seq, h⟩
  · split at h
    · cases h
    · rename_i g _
      obtain ⟨q, hq⟩ := s.busEntry_eq b [{ op := .readPage s.pageCounter g.payload, line := line, loc := 0 }]
      exact ⟨q, hq ▸ h⟩

/-- The meaning of an instruction is a step of C, a micro-step, or a command of one step (R98, R162, R193). -/
theorem exec_cases {i : Instr} {s t : State} (h : exec i s = .next t) :
    ControlOnly s t ∨ (∃ q, microStep { s with seq := q } = .next t) ∨
      ∃ n w, t = ({ s with pageCounter := n } : State).finishCommand w := by
  cases i
  case readId =>
    obtain ⟨q, hq⟩ := s.commandEntry_eq .cmdReadId
    exact .inr (.inl ⟨q, hq ▸ h⟩)
  case readPage =>
    obtain ⟨q, hq⟩ := s.commandEntry_eq .cmdReadPage
    exact .inr (.inl ⟨q, hq ▸ h⟩)
  case setpc n =>
    simp only [exec, execSetpc] at h
    split_ifs at h <;> cases h
    · exact .inr (.inr ⟨n, _, rfl⟩)
    · exact .inr (.inr ⟨s.pageCounter, _, rfl⟩)
  case rstpc => cases h; exact .inr (.inr ⟨0#32, _, rfl⟩)
  case getdrv | getinfo | noOp => cases h; exact .inr (.inr ⟨s.pageCounter, _, rfl⟩)
  case nandReset =>
    obtain ⟨q, hq⟩ := s.busEntry_eq 0xFF#8 [Op.reset.start]
    exact .inr (.inl ⟨q, hq ▸ h⟩)
  case nandReadId =>
    obtain ⟨q, hq⟩ := s.busEntry_eq 0x90#8 [(Op.readId s.idDest).start]
    exact .inr (.inl ⟨q, hq ▸ h⟩)
  case nandReadSetup | nandReadConfirm => exact .inr (.inl (State.pageRead_next h))
  all_goals exact .inl (ControlOnly.exec rfl h)

/-- A turn of W is a line of the worker loop, a micro-step, or the meaning of an instruction (R160, R218, R242). -/
theorem workerTurn_cases {s t : State} (h : workerTurn s = .next t) :
    t = s ∨ t = s.takeCommand ∨ t = s.publish ∨ microStep s = .next t ∨ ∃ i, exec i s = .next t := by
  unfold workerTurn at h
  split at h
  · cases h; exact .inl rfl
  · split at h
    · exact .inr (.inr (.inr (.inr ⟨_, h⟩)))
    · exact .inr (.inr (.inr (.inl h)))
  · split at h
    · cases h; exact .inr (.inl rfl)
    · exact .inr (.inr (.inr (.inr ⟨_, h⟩)))
    · cases h; exact .inr (.inr (.inl rfl))

/-- A poll changes, besides the trace and the chip's answers, only `seq`, `ry_polls` and the return value (R126 line 8). -/
theorem runMicro_poll (f : Frame) (fs : List Frame) (s : State) :
    ∃ q n r, runMicro .poll f fs s = .next
      { ({ s with env := s.env.ry.2 } : State).emit (.ry s.env.ry.1) with seq := q, ryPolls := n, ret := r } := by
  rcases State.afterPoll_cases (({ s with env := s.env.ry.2 } : State).emit (.ry s.env.ry.1)) f fs s.env.ry.1 with
    ⟨-, e⟩ | ⟨-, -, e⟩ | ⟨-, -, e⟩ <;> exact ⟨_, _, _, congrArg Host.Outcome.next e⟩

/-! ### BUF -/

/-- A line writes at most one byte of BUF, below BUF_SIZE (R126 line 10d, R166 line 2). -/
theorem runMicro_buf {m : Micro} {f : Frame} {fs : List Frame} {s t : State} (h : runMicro m f fs s = .next t) :
    t.buf = s.buf ∨ ∃ a v, a < s.params.bufSize ∧ t.buf = s.buf.write a v := by
  cases m
  case poll =>
    obtain ⟨q, n, r, e⟩ := runMicro_poll f fs s
    rw [e] at h
    cases h
    exact .inl rfl
  case sampleStore d =>
    simp only [runMicro] at h
    split at h <;> cases h
    rename_i u hstore
    rcases State.storeByte_cases _ _ _ _ hstore with ⟨-, hidx, rfl⟩ | ⟨-, -, rfl⟩
    · exact .inr ⟨s.byteIdx, _, hidx, rfl⟩
    · exact .inl rfl
  case clearByte =>
    simp only [runMicro] at h
    split_ifs at h with hnext hlast <;> cases h
    · exact .inr ⟨f.loc, _, by omega, rfl⟩
    · exact .inr ⟨f.loc, _, hlast, rfl⟩
  case endStartup =>
    cases h
    left
    rcases State.endStartup_cases s with ⟨-, e⟩ | ⟨-, e⟩ <;> simp [e]
  case whileIdx | checkReady | endReadId | rejectNoPage | beginRead | endReadPage =>
    simp only [runMicro] at h
    split at h <;> cases h <;> exact .inl rfl
  all_goals cases h; exact .inl rfl

theorem State.bufOk_iff (s : State) :
    s.bufOk = true ↔ s.buf.wf = true ∧ s.buf.within s.params.bufSize = true := by
  simp [State.bufOk]

/-- A byte written below BUF_SIZE keeps the form of BUF. -/
theorem State.bufOk_of_write {s t : State} (hok : s.bufOk = true) (hparams : t.params = s.params)
    (h : t.buf = s.buf ∨ ∃ a v, a < s.params.bufSize ∧ t.buf = s.buf.write a v) : t.bufOk = true := by
  rw [State.bufOk_iff] at hok ⊢
  obtain ⟨hwf, hwithin⟩ := hok
  rw [hparams]
  obtain hsame | ⟨a, v, ha, hwrite⟩ := h
  · rw [hsame]
    exact ⟨hwf, hwithin⟩
  · rw [hwrite]
    exact ⟨Memory.wf_write _ a v hwf, Memory.within_write _ _ a v ha hwithin⟩

theorem microStep_bufOk {s t : State} (hok : s.bufOk = true) (h : microStep s = .next t) : t.bufOk = true := by
  obtain ⟨hparams, -⟩ := microStep_keeps s t h
  refine State.bufOk_of_write hok hparams ?_
  unfold microStep at h
  split at h
  · cases h; exact .inl rfl
  · split at h
    · cases h; exact .inl rfl
    · exact runMicro_buf h

theorem ControlOnly.bufOk {s t : State} (h : ControlOnly s t) (hok : s.bufOk = true) : t.bufOk = true := by
  rw [h]
  exact hok

theorem exec_bufOk {i : Instr} {s t : State} (hok : s.bufOk = true) (h : exec i s = .next t) : t.bufOk = true := by
  obtain hc | ⟨q, hmicro⟩ | ⟨n, w, rfl⟩ := exec_cases h
  · exact hc.bufOk hok
  · exact microStep_bufOk (s := { s with seq := q }) hok hmicro
  · exact hok

theorem workerTurn_bufOk {s t : State} (hok : s.bufOk = true) (h : workerTurn s = .next t) : t.bufOk = true := by
  obtain rfl | rfl | rfl | hmicro | ⟨i, hexec⟩ := workerTurn_cases h
  · exact hok
  · obtain ⟨-, e⟩ | ⟨w, q, -, e⟩ := s.takeCommand_cases <;> rw [e] <;> exact hok
  · obtain ⟨-, e⟩ | ⟨-, e⟩ := s.publish_cases <;> rw [e] <;> exact hok
  · exact microStep_bufOk hok hmicro
  · exact exec_bufOk hok hexec

/-- A turn of C keeps BUF whatever instruction C stands at, a host byte or not. -/
theorem controlTurn_bufOk {s t : State} (hok : s.bufOk = true) (h : controlTurn s = .next t) : t.bufOk = true := by
  obtain hc | ⟨i, st, -, hexec⟩ | ⟨i, rest, -, hexec⟩ := controlTurn_cases h
  · exact hc.bufOk hok
  · exact exec_bufOk hok hexec
  · exact exec_bufOk (s := { s with control := { s.control with serialIn := rest } }) hok hexec

theorem takeInput_bufOk {i : Input} {s t : State} (hok : s.bufOk = true) (h : takeInput i s = .next t) :
    t.bufOk = true := by
  cases i with
  | worker => exact workerTurn_bufOk hok h
  | control => exact controlTurn_bufOk hok h
  | port x => cases h; exact (ControlOnly.portTurn s x).bufOk hok
  | hostByte b => cases h; exact hok
  | argTimeout => cases h; exact (ControlOnly.endArgWait s).bufOk hok
  | hardReset => cases h; rfl

/-- Settles O57, input by input: BUF changes only by a byte written below BUF_SIZE, or by a hard reset. -/
theorem stepKeepsTheBufferCanonical : Obligations.StepKeepsTheBufferCanonical := fun s _ hok h =>
  takeInput_bufOk (s := { s with env := s.env.nextInput.2 }) hok h

end Sys2Proof.Machine
end

section
/-! PROOFS. `phase`, the flags, GEOM and BOOT_ID: which lines change them, and that none of those runs outside INIT but for
a hard reset (R30, R35, R219, R222). -/

namespace Sys2Proof.Machine

/-! ### The lines of the identification -/

/-- What the startup sequence finds out about the chip is the same in both states. -/
structure SameIdentity (s t : State) : Prop where
  phase : t.phase = s.phase
  flags : t.flags = s.flags
  geom : t.geom = s.geom
  bootId : t.bootId = s.bootId
  bootIdValid : t.bootIdValid = s.bootIdValid

theorem SameIdentity.refl (s : State) : SameIdentity s s := ⟨rfl, rfl, rfl, rfl, rfl⟩

theorem SameIdentity.trans {s t u : State} (h : SameIdentity s t) (h' : SameIdentity t u) : SameIdentity s u :=
  ⟨h'.phase.trans h.phase, h'.flags.trans h.flags, h'.geom.trans h.geom, h'.bootId.trans h.bootId,
    h'.bootIdValid.trans h.bootIdValid⟩

theorem ControlOnly.sameIdentity {s t : State} (h : ControlOnly s t) : SameIdentity s t := by
  rw [h]
  exact ⟨rfl, rfl, rfl, rfl, rfl⟩

/-- The lines that write `phase`, a flag, GEOM or BOOT_ID. -/
def Micro.identifies : Micro → Bool
  | .sampleStore .bootId | .checkReady _ | .latchIdValid | .latchGeometry | .latchWidth | .endStartup => true
  | _ => false

/-- The operations with such a line of their own or of one they call. -/
def Op.identifies : Op → Bool
  | .startup | .readId .bootId | .readBytes _ .bootId => true
  | _ => false

theorem Op.body_not_identifies {o : Op} (ho : o.identifies = false) : ∀ m ∈ o.body, m.identifies = false := by
  have hall : o.body.all (fun m => !m.identifies) = true := by
    cases o with
    | startup => cases ho
    | readBytes count dest =>
      cases dest with
      | buf => rfl
      | bootId => cases ho
    | _ => rfl
  simpa using hall

/-- Only an operation that identifies calls one that does. -/
theorem Op.not_identifies_of_calls (o o' : Op) (h : o.Calls o') (ho : o.identifies = false) : o'.identifies = false := by
  cases h with
  | startupReset | startupId => cases ho
  | idBytes d =>
    cases d with
    | buf => rfl
    | bootId => cases ho
  | _ => rfl

theorem runMicro_sameIdentity {m : Micro} {f : Frame} {fs : List Frame} {s t : State} (hm : m.identifies = false)
    (h : runMicro m f fs s = .next t) : SameIdentity s t := by
  cases m
  case checkReady | latchIdValid | latchGeometry | latchWidth | endStartup => cases hm
  case poll =>
    obtain ⟨q, n, r, e⟩ := runMicro_poll f fs s
    rw [e] at h
    cases h
    exact ⟨rfl, rfl, rfl, rfl, rfl⟩
  case sampleStore d =>
    simp only [runMicro] at h
    split at h <;> cases h
    rename_i u hstore
    obtain ⟨-, -, rfl⟩ | ⟨rfl, -, -⟩ := State.storeByte_cases _ _ _ _ hstore
    · exact ⟨rfl, rfl, rfl, rfl, rfl⟩
    · cases hm
  case whileIdx | endReadId | rejectNoPage | beginRead | endReadPage =>
    simp only [runMicro] at h
    split at h <;> cases h <;> exact ⟨rfl, rfl, rfl, rfl, rfl⟩
  case clearByte =>
    simp only [runMicro] at h
    split_ifs at h <;> cases h <;> exact ⟨rfl, rfl, rfl, rfl, rfl⟩
  all_goals cases h; exact ⟨rfl, rfl, rfl, rfl, rfl⟩

/-- Each flag that is 1 in `f` is 1 in `g`. -/
structure Flags.Below (f g : Flags) : Prop where
  geomValid : f.geomValid = true → g.geomValid = true
  errGeometry : f.errGeometry = true → g.errGeometry = true
  errIoWidth : f.errIoWidth = true → g.errIoWidth = true
  errNotReady : f.errNotReady = true → g.errNotReady = true

theorem Flags.Below.refl (f : Flags) : f.Below f := ⟨id, id, id, id⟩

theorem Flags.below_afterNotReady (f : Flags) : f.Below f.afterNotReady := ⟨id, id, id, fun _ => rfl⟩

theorem Flags.below_afterGeometry (f : Flags) (g : Option Geometry) : f.Below (f.afterGeometry g) := by
  cases g
  · exact ⟨id, fun _ => rfl, id, id⟩
  · exact ⟨fun _ => rfl, id, id, id⟩

theorem Flags.below_afterWidth (f : Flags) (accepted : Bool) : f.Below (f.afterWidth accepted) := by
  cases accepted
  · exact ⟨id, id, fun _ => rfl, id⟩
  · exact .refl f

/-- No line clears a flag (R35). -/
theorem runMicro_flags {m : Micro} {f : Frame} {fs : List Frame} {s t : State} (h : runMicro m f fs s = .next t) :
    s.flags.Below t.flags := by
  by_cases hm : m.identifies = false
  · rw [(runMicro_sameIdentity hm h).flags]
    exact .refl s.flags
  · cases m <;> try exact absurd rfl hm
    case sampleStore d =>
      simp only [runMicro] at h
      split at h <;> cases h
      rename_i u hstore
      obtain ⟨-, -, rfl⟩ | ⟨-, -, rfl⟩ := State.storeByte_cases _ _ _ _ hstore <;> exact .refl s.flags
    case checkReady done =>
      simp only [runMicro] at h
      split at h <;> cases h
      · exact .refl s.flags
      · exact s.flags.below_afterNotReady
    case latchIdValid => cases h; exact .refl s.flags
    case latchGeometry => cases h; exact s.flags.below_afterGeometry _
    case latchWidth => cases h; exact s.flags.below_afterWidth _
    case endStartup =>
      cases h
      obtain ⟨-, e⟩ | ⟨-, e⟩ := s.endStartup_cases <;> simp [e, Flags.Below.refl]

theorem microStep_flags {s t : State} (h : microStep s = .next t) : s.flags.Below t.flags := by
  unfold microStep at h
  split at h
  · cases h; exact .refl s.flags
  · split at h
    · cases h; exact .refl s.flags
    · exact runMicro_flags h

/-- Under an operation that does not identify, no micro-step does. -/
theorem microStep_sameIdentity {s t : State} {o : Op} (hlinked : linked s.seq = true)
    (hout : outermostOp s.seq = some o) (ho : o.identifies = false) (h : microStep s = .next t) : SameIdentity s t := by
  unfold microStep at h
  split at h
  · cases h; exact .refl s
  · rename_i f fs hseq
    split at h
    · cases h; exact ⟨rfl, rfl, rfl, rfl, rfl⟩
    · rename_i m hline
      rw [hseq] at hlinked hout
      have hop : f.op.identifies = false := head_of_outermost Op.not_identifies_of_calls hlinked hout ho
      have hm : m.identifies = false := Op.body_not_identifies hop m (List.mem_of_getElem? hline)
      exact runMicro_sameIdentity hm h

/-! ### The turn of W in each phase -/

theorem decode_of_busOpcode {fs : List Frame} {b : Byte} (h : busOpcode fs = some b) :
    ∃ i, decode (.nandcmd b) = some i := by
  revert h
  fun_induction busOpcode fs with
  | case1 => intro h; cases h
  | case6 => assumption
  | _ => intro h; cases h; exact ⟨_, rfl⟩

/-- In INIT every turn of W is a micro-step of the startup sequence (R242). -/
theorem workerTurn_init {s : State} (h : s.phase = .init) : workerTurn s = microStep s := by
  simp only [workerTurn, h, State.busInstr]
  cases hb : busOpcode s.seq with
  | none => rfl
  | some b =>
    obtain ⟨i, hi⟩ := decode_of_busOpcode hb
    simp only [Option.bind_some, hi]
    exact exec_bus s b i hb hi

/-- In Execute the sequencer is idle, or stands inside the command of CUR_CMD (R31, R32). -/
theorem State.sequencerOk_execute {s : State} (hok : s.sequencerOk = true) (hp : s.phase = .run)
    (hw : s.wstate = .execute) :
    s.seq = [] ∨ (outermostOp s.seq = some .cmdReadId ∧ decodeCommand s.curCmd = .readId) ∨
      (outermostOp s.seq = some .cmdReadPage ∧ decodeCommand s.curCmd = .readPage) := by
  simp only [State.sequencerOk, hp, hw, Bool.and_eq_true, Bool.or_eq_true, List.isEmpty_iff, decide_eq_true_eq,
    or_assoc] at hok
  obtain ⟨-, hseq⟩ := hok
  exact hseq

/-- Inside a command every turn of W is a micro-step, through the opcode on the bus or through CUR_CMD. -/
theorem exec_workerInstr_inside {s : State}
    (h : (outermostOp s.seq = some .cmdReadId ∧ decodeCommand s.curCmd = .readId) ∨
      (outermostOp s.seq = some .cmdReadPage ∧ decodeCommand s.curCmd = .readPage)) :
    exec s.workerInstr s = microStep s := by
  cases hb : busOpcode s.seq with
  | some b =>
    obtain ⟨i, hi⟩ := decode_of_busOpcode hb
    rw [s.workerInstr_bus b i hb hi]
    exact exec_bus s b i hb hi
  | none =>
    rw [s.workerInstr_command hb]
    obtain ⟨hout, hcmd⟩ | ⟨hout, hcmd⟩ := h <;> rw [hcmd]
    · exact execReadId_inside s hout
    · exact execReadPage_inside s hout

/-- A Command that begins takes the first line of READID or READPAGE, or ends at once (R162, R165 to R171). -/
theorem exec_decodeCommand_idle {s t : State} {c : Command} (hseq : s.seq = [])
    (h : exec (decodeCommand c) s = .next t) :
    (∃ o : Op, (o = .cmdReadId ∨ o = .cmdReadPage) ∧ microStep { s with seq := settle [o.start] } = .next t) ∨
      ∃ n w, t = ({ s with pageCounter := n } : State).finishCommand w := by
  have hentry (o : Op) : s.commandEntry o = { s with seq := settle [o.start] } := by
    simp [State.commandEntry, hseq, outermostOp]
  revert h
  fun_cases decodeCommand c <;> intro h
  · exact .inl ⟨_, .inl rfl, hentry _ ▸ h⟩
  · exact .inl ⟨_, .inr rfl, hentry _ ▸ h⟩
  · cases h; exact .inr ⟨_, _, rfl⟩
  · simp only [exec, execSetpc] at h
    split_ifs at h <;> cases h
    · exact .inr ⟨_, _, rfl⟩
    · exact .inr ⟨s.pageCounter, _, rfl⟩
  all_goals cases h; exact .inr ⟨s.pageCounter, _, rfl⟩

/-- A command executes without a look at what the startup sequence found out. -/
theorem exec_workerInstr_sameIdentity {s t : State} (hok : s.sequencerOk = true) (hp : s.phase = .run)
    (hw : s.wstate = .execute) (h : exec s.workerInstr s = .next t) : SameIdentity s t := by
  obtain hseq | hinside := s.sequencerOk_execute hok hp hw
  · rw [s.workerInstr_command (by rw [hseq]; rfl)] at h
    obtain ⟨o, ho, hmicro⟩ | ⟨n, w, rfl⟩ := exec_decodeCommand_idle hseq h
    · have hstart : linked (settle [o.start]) = true ∧ outermostOp (settle [o.start]) = some o ∧
          o.identifies = false := by
        obtain rfl | rfl := ho <;> decide
      obtain ⟨hlinked, hout, hid⟩ := hstart
      have hbegun : SameIdentity s { s with seq := settle [o.start] } := ⟨rfl, rfl, rfl, rfl, rfl⟩
      exact hbegun.trans (microStep_sameIdentity hlinked hout hid hmicro)
    · exact ⟨rfl, rfl, rfl, rfl, rfl⟩
  · rw [exec_workerInstr_inside hinside] at h
    have hlinked := s.linked_of_sequencerOk hok
    obtain ⟨hout, -⟩ | ⟨hout, -⟩ := hinside
    · exact microStep_sameIdentity hlinked hout rfl h
    · exact microStep_sameIdentity hlinked hout rfl h

theorem workerTurn_sameIdentity {s t : State} (hok : s.sequencerOk = true) (hp : s.phase ≠ .init)
    (h : workerTurn s = .next t) : SameIdentity s t := by
  cases hphase : s.phase with
  | init => exact absurd hphase hp
  | halted =>
    rw [workerTurn_halted s hphase] at h
    cases h; exact .refl s
  | run =>
    cases hw : s.wstate with
    | waitForCommand =>
      rw [workerTurn_wait s hphase hw] at h
      cases h
      obtain ⟨-, e⟩ | ⟨w, q, -, e⟩ := s.takeCommand_cases <;> rw [e] <;> exact ⟨rfl, rfl, rfl, rfl, rfl⟩
    | execute =>
      rw [workerTurn_execute s hphase hw] at h
      exact exec_workerInstr_sameIdentity hok hphase hw h
    | publishResult =>
      rw [workerTurn_publish s hphase hw] at h
      cases h
      obtain ⟨-, e⟩ | ⟨-, e⟩ := s.publish_cases <;> rw [e] <;> exact ⟨rfl, rfl, rfl, rfl, rfl⟩

/-! ### The step -/

/-- Outside INIT, no input but a hard reset changes what the startup sequence found out (R30, R219, R222). -/
theorem takeInput_sameIdentity {s t : State} {i : Input} (hseq : s.sequencerOk = true) (hcontrol : s.controlOk = true)
    (hi : i ≠ .hardReset) (hp : s.phase ≠ .init) (h : takeInput i s = .next t) : SameIdentity s t := by
  by_cases hw : i = .worker
  · subst hw
    exact workerTurn_sameIdentity hseq hp h
  · exact (ControlOnly.takeInput hcontrol hw hi h).sameIdentity

/-- In every phase, no input but a hard reset clears a flag (R35). -/
theorem takeInput_flags {s t : State} {i : Input} (hseq : s.sequencerOk = true) (hcontrol : s.controlOk = true)
    (hi : i ≠ .hardReset) (h : takeInput i s = .next t) : s.flags.Below t.flags := by
  by_cases hinit : s.phase = .init ∧ i = .worker
  · obtain ⟨hp, rfl⟩ := hinit
    exact microStep_flags ((workerTurn_init hp).symm.trans h)
  · have hsame : SameIdentity s t := by
      by_cases hp : s.phase = .init
      · exact (ControlOnly.takeInput hcontrol (fun hw => hinit ⟨hp, hw⟩) hi h).sameIdentity
      · exact takeInput_sameIdentity hseq hcontrol hi hp h
    rw [hsame.flags]
    exact .refl s.flags

/-- Settles O47: outside INIT nothing found out about the chip changes, and in INIT the flags only rise. -/
theorem phasesAndFlagsAreSticky : Obligations.PhasesAndFlagsAreSticky := fun s t hseq hcontrol hi h => by
  have henv : SameIdentity s { s with env := s.env.nextInput.2 } := ⟨rfl, rfl, rfl, rfl, rfl⟩
  have hsame (hp : s.phase ≠ .init) : SameIdentity s t :=
    henv.trans (takeInput_sameIdentity hseq hcontrol hi hp h)
  obtain ⟨hgeomValid, herrGeometry, herrIoWidth, herrNotReady⟩ : s.flags.Below t.flags :=
    takeInput_flags (s := { s with env := s.env.nextInput.2 }) hseq hcontrol hi h
  refine ⟨fun hp => ?_, fun hp => ?_, fun hp => ?_, hgeomValid, herrGeometry, herrIoWidth, herrNotReady⟩
  · exact (hsame (by simp [hp])).phase.trans hp
  · exact (hsame (by simp [hp])).phase.trans hp
  · have hid := hsame hp
    exact ⟨hid.flags, hid.geom, hid.bootId, hid.bootIdValid⟩

end Sys2Proof.Machine
end

section
/-! PROOFS. Where the invariant is not kept: READPAGE's clear index before its first line (R166). -/

namespace Sys2Proof.Machine

/-- Parameters with the smallest BUF, 4352 bytes. -/
def overrunParams : Params :=
  { cmdqExtra := 0, resqExtra := 0, bufExtra := 0, ryExtra := none, wpLevel := true, driveStrength := 0#32,
    pinMap := { ioBase := 0, cle := 8, ale := 9, ce := 10, re := 11, we := 12, wp := 13, ry := 14 } }

/-- READPAGE at position `line`, with the index of its clear loop at BUF_SIZE, after a startup that identified the chip. -/
def overrunAt (line : Nat) : State :=
  { State.resetFor overrunParams with
    phase := .run, wstate := .execute, curCmd := Command.ofWord 0x01000000#32
    seq := [{ op := .cmdReadPage, line := line, loc := 4352 }]
    bootId := { b0 := 0x98#8, b1 := 0xDC#8, b2 := 0x90#8, b3 := 0x26#8, b4 := 0x76#8 }, bootIdValid := true
    geom := some geometry4096
    flags := { geomValid := true, errGeometry := false, errIoWidth := false, errNotReady := false } }

/-- Before its first line, `storesOk` leaves READPAGE's index free. -/
theorem inv_overrunAt_zero : (overrunAt 0).inv = true := by decide

/-- The first line accepts the page and goes on to the clear loop with the index as it stands. -/
theorem step_overrunAt_zero : step (overrunAt 0) = .next (overrunAt 1) := rfl

/-- At the clear loop the index has to be inside BUF. -/
theorem inv_overrunAt_one : (overrunAt 1).inv = false := by decide

/-- Refutes O59: `storesOk` bounds READPAGE's index at its second line alone, so that the first line can lead out of the
invariant. The state is none that a run from reset reaches, for a command starts with its index at 0 (`Op.start`): a bound
on the index before the first line, too, is missing from the invariant. -/
theorem not_stepKeepsTheInvariant : ¬ Obligations.StepKeepsTheInvariant := fun h => by
  obtain ⟨hinv, -⟩ := h (overrunAt 0) (overrunAt 1) inv_overrunAt_zero step_overrunAt_zero
  exact absurd hinv (by simp [inv_overrunAt_one])

end Sys2Proof.Machine
end

section
/-! PROOFS. The control port outside the map, and the registers whose writes are ignored (R41, R48, R64). -/

namespace Sys2Proof.Machine

/-! ### Offsets outside the map -/

/-- The map of R41 is CMDQ_PUSH and the read-only registers. -/
theorem State.register_outside (s : State) {off : Nat} (h : off ∉ 0x00 :: readOnlyOffsets) : s.register off = none := by
  unfold State.register
  split
  case h_9 => rfl
  all_goals exact absurd (by decide) h

theorem portAccess_regRead_outside (s : State) {off : Nat} (h : off ∉ 0x00 :: readOnlyOffsets) :
    portAccess (.regRead off) s = some (.portErr, s) := by
  have hpop : off ≠ 0x04 := fun e => h (by rw [e]; decide)
  simp [portAccess, hpop, s.register_outside h]

theorem portAccess_regWrite_outside (s : State) {off : Nat} (v : Word) (h : off ∉ 0x00 :: readOnlyOffsets) :
    portAccess (.regWrite off v) s = some (.portErr, s) := by
  obtain ⟨hpush, hro⟩ := List.ne_and_not_mem_of_not_mem_cons h
  simp [portAccess, hpush, hro]

/-! ### Writes that are ignored -/

theorem portAccess_regWrite_readOnly (s : State) {off : Nat} (v : Word) (h : off ∈ readOnlyOffsets) :
    portAccess (.regWrite off v) s = some (.written, s) := by
  have hpush : off ≠ 0x00 := fun e => absurd (e ▸ h) (by decide)
  simp [portAccess, hpush, h]

/-! ### The buffer window -/

theorem portAccess_bufRead_below (s : State) {i : Nat} (h : i < s.params.bufSize) :
    portAccess (.bufRead i) s = some (.byte (s.buf.read i), s) := by
  simp [portAccess, h]

theorem portAccess_bufRead_beyond (s : State) {i : Nat} (h : s.params.bufSize ≤ i) :
    portAccess (.bufRead i) s = some (.portErr, s) := by
  simp [portAccess, Nat.not_lt.mpr h]

/-- Settles O41, transaction by transaction: the obligation's two lists are the map and the read-only registers. -/
theorem outsideTheMapIsPortErr : Obligations.OutsideTheMapIsPortErr := fun s _ _ v =>
  ⟨fun h => ⟨portAccess_regRead_outside s h, portAccess_regWrite_outside s v h⟩,
    portAccess_regWrite_readOnly s v,
    portAccess_bufRead_beyond s,
    portAccess_bufRead_below s⟩

end Sys2Proof.Machine
end

section
/-! PROOFS. What a step does to CMDQ and RESQ: C enqueues commands and dequeues results, W dequeues commands and enqueues
results, one word at a step (R60, R70, R71, R72). -/

namespace Sys2Proof.Machine

/-- CMDQ and RESQ, each with its oldest word first. -/
def State.queues (s : State) : List Word × List Word := (s.cmdq, s.resq)

/-- What a step of C can do to CMDQ and RESQ: nothing, one push of CMDQ or one pop of RESQ (R42, R43). -/
inductive ControlQueueStep : List Word × List Word → List Word × List Word → Prop
  | keep (q : List Word × List Word) : ControlQueueStep q q
  | push (cq rq : List Word) (w : Word) : ControlQueueStep (cq, rq) (cq ++ [w], rq)
  | pop (cq rq : List Word) (w : Word) : ControlQueueStep (cq, w :: rq) (cq, rq)

/-- What a step of W can do to CMDQ and RESQ: nothing, take one command or publish one result (R160). -/
inductive WorkerQueueStep : List Word × List Word → List Word × List Word → Prop
  | keep (q : List Word × List Word) : WorkerQueueStep q q
  | take (cq rq : List Word) (w : Word) : WorkerQueueStep (w :: cq, rq) (cq, rq)
  | publish (cq rq : List Word) (w : Word) : WorkerQueueStep (cq, rq) (cq, rq ++ [w])

/-! ### Steps of C -/

/-- A transaction that completes is such a step, whatever `t` changes after it outside the queues. -/
theorem ControlQueueStep.transact {s t u : State} {x : Txn} {r : Response} (h : s.transact x = some (r, u))
    (ht : t.queues = u.queues) : ControlQueueStep s.queues t.queues := by
  rw [ht]
  obtain ⟨-, hhold⟩ | ⟨r', v, haccess, hdone⟩ := s.transact_cases x
  · rw [hhold] at h
    cases h
  · rw [hdone] at h
    cases h
    obtain rfl | ⟨w, -, -, -, rfl⟩ | ⟨w, q, -, -, hresq, rfl⟩ := portAccess_cases x s v r haccess
    · exact .keep _
    · exact .push _ _ w
    · have hqueues : s.queues = (s.cmdq, w :: q) := congrArg (Prod.mk s.cmdq) hresq
      rw [hqueues]
      exact .pop _ _ w

theorem ControlQueueStep.perform (s : State) (x : Txn) : ControlQueueStep s.queues (s.perform x).queues := by
  unfold State.perform
  split
  · rename_i hdone
    exact .transact hdone rfl
  · exact .keep _

theorem ControlQueueStep.portTurn (s : State) (x : Txn) : ControlQueueStep s.queues (portTurn x s).queues := by
  unfold Machine.portTurn
  split_ifs
  · exact .keep _
  · exact .perform s x

theorem ControlQueueStep.bootPoll (s : State) : ControlQueueStep s.queues s.bootPoll.queues := by
  unfold State.bootPoll
  split
  · rename_i hread
    split_ifs <;> exact .transact hread rfl
  · exact .keep _

theorem ControlQueueStep.bootRead (s : State) (off : Nat) (upd : Geometry → Word → Geometry) (next : CtlPos) :
    ControlQueueStep s.queues (s.bootRead off upd next).queues := by
  unfold State.bootRead
  split
  · rename_i hread
    exact .transact hread rfl
  · exact .keep _

theorem ControlQueueStep.endArgWait (s : State) : ControlQueueStep s.queues s.endArgWait.queues := by
  unfold State.endArgWait
  split_ifs <;> exact .keep _

/-- Each stage of an exchange makes one transaction (R190). -/
theorem ControlQueueStep.exchange (s : State) (i : Instr) (w : Word) (accept : Int → Bool)
    (payload : Option (List Byte → Report)) : ControlQueueStep s.queues (s.exchange i w accept payload).queues := by
  unfold State.exchange
  split
  · split
    · rename_i hpush
      exact .transact hpush rfl
    · exact .keep _
  · split
    · rename_i hpop
      split
      · split <;> exact .transact hpop rfl
      · exact .transact hpop rfl
    · exact .keep _
  · split
    · rename_i hread
      split <;> exact .transact hread rfl
    · rename_i hread _
      exact .transact hread rfl
    · exact .keep _

theorem ControlQueueStep.exec {i : Instr} {s t : State} (hi : isHostByte i = true) (h : exec i s = .next t) :
    ControlQueueStep s.queues t.queues := by
  cases i <;> try cases hi
  case hostGetDrive =>
    simp only [Machine.exec, execHostGetDrive] at h
    split at h <;> cases h
    · rename_i hread
      exact .transact hread rfl
    · exact .keep _
  case hostGetInfo => cases h; exact .keep _
  all_goals cases h; exact .exchange s _ _ _ _

theorem ControlQueueStep.controlTurn {s t : State} (hok : s.controlOk = true) (h : controlTurn s = .next t) :
    ControlQueueStep s.queues t.queues := by
  unfold Machine.controlTurn at h
  split at h
  · cases h; exact .perform s _
  · split at h
    case h_1 => cases h; exact .keep _
    case h_2 => cases h; exact .bootPoll s
    case h_6 i st hpos =>
      have hi : isHostByte i = true := by rwa [State.controlOk, hpos] at hok
      exact .exec hi h
    case h_7 =>
      split at h
      case h_4 i rest hfetch =>
        exact .exec (s := { s with control := { s.control with serialIn := rest } }) (isHostByte_of_fetchSerial hfetch) h
      all_goals cases h; exact .keep _
    all_goals cases h; exact .bootRead s _ _ _

/-- Every input but a turn of W and a hard reset is a step of C, or leaves both queues alone. -/
theorem ControlQueueStep.takeInput {s t : State} {i : Input} (hok : s.controlOk = true) (hw : i ≠ .worker)
    (hr : i ≠ .hardReset) (h : takeInput i s = .next t) : ControlQueueStep s.queues t.queues := by
  cases i with
  | worker => exact absurd rfl hw
  | hardReset => exact absurd rfl hr
  | control => exact .controlTurn hok h
  | port x => cases h; exact .portTurn s x
  | hostByte b => cases h; exact .keep _
  | argTimeout => cases h; exact .endArgWait s

/-! ### Steps of W -/

theorem microStep_queues {s t : State} (h : microStep s = .next t) : t.queues = s.queues := by
  obtain ⟨-, -, -, -, hcmdq, hresq, -, -⟩ := microStep_keeps s t h
  simp [State.queues, hcmdq, hresq]

/-- A command executes without a look at the queues: its word is taken before, and its result published after. -/
theorem exec_workerInstr_queues {s t : State} (hok : s.sequencerOk = true) (hp : s.phase = .run)
    (hw : s.wstate = .execute) (h : exec s.workerInstr s = .next t) : t.queues = s.queues := by
  obtain hseq | hinside := s.sequencerOk_execute hok hp hw
  · rw [s.workerInstr_command (by rw [hseq]; rfl)] at h
    obtain ⟨o, -, hmicro⟩ | ⟨n, w, rfl⟩ := exec_decodeCommand_idle hseq h
    · exact microStep_queues (s := { s with seq := settle [o.start] }) hmicro
    · rfl
  · rw [exec_workerInstr_inside hinside] at h
    exact microStep_queues h

theorem State.takeCommand_queues (s : State) : WorkerQueueStep s.queues s.takeCommand.queues := by
  obtain ⟨-, hhold⟩ | ⟨w, q, hcmdq, htake⟩ := s.takeCommand_cases
  · rw [hhold]
    exact .keep _
  · have hqueues : s.queues = (w :: q, s.resq) := congrArg (Prod.mk · s.resq) hcmdq
    rw [htake, hqueues]
    exact .take _ _ w

theorem State.publish_queues (s : State) : WorkerQueueStep s.queues s.publish.queues := by
  obtain ⟨-, hhold⟩ | ⟨-, hpublish⟩ := s.publish_cases
  · rw [hhold]
    exact .keep _
  · rw [hpublish]
    exact .publish _ _ s.curRes

theorem WorkerQueueStep.of_eq {q q' : List Word × List Word} (h : q' = q) : WorkerQueueStep q q' := h ▸ .keep q

theorem WorkerQueueStep.workerTurn {s t : State} (hok : s.sequencerOk = true) (h : workerTurn s = .next t) :
    WorkerQueueStep s.queues t.queues := by
  cases hp : s.phase with
  | init => exact .of_eq (microStep_queues ((workerTurn_init hp).symm.trans h))
  | halted =>
    rw [workerTurn_halted s hp] at h
    cases h
    exact .keep _
  | run =>
    cases hw : s.wstate with
    | waitForCommand =>
      rw [workerTurn_wait s hp hw] at h
      cases h
      exact s.takeCommand_queues
    | execute => exact .of_eq (exec_workerInstr_queues hok hp hw ((workerTurn_execute s hp hw).symm.trans h))
    | publishResult =>
      rw [workerTurn_publish s hp hw] at h
      cases h
      exact s.publish_queues

/-! ### First in, first out -/

/-- One step of a first-in first-out queue: it stays, takes one word at its end, or gives up its first. -/
def FifoStep (q q' : List Word) : Prop := q' = q ∨ (∃ w, q' = q ++ [w]) ∨ ∃ w, q = w :: q'

theorem ControlQueueStep.fifo {q q' : List Word × List Word} (h : ControlQueueStep q q') :
    FifoStep q.1 q'.1 ∧ FifoStep q.2 q'.2 := by
  cases h with
  | keep => exact ⟨.inl rfl, .inl rfl⟩
  | push cq rq w => exact ⟨.inr (.inl ⟨w, rfl⟩), .inl rfl⟩
  | pop cq rq w => exact ⟨.inl rfl, .inr (.inr ⟨w, rfl⟩)⟩

theorem WorkerQueueStep.fifo {q q' : List Word × List Word} (h : WorkerQueueStep q q') :
    FifoStep q.1 q'.1 ∧ FifoStep q.2 q'.2 := by
  cases h with
  | keep => exact ⟨.inl rfl, .inl rfl⟩
  | take cq rq w => exact ⟨.inr (.inr ⟨w, rfl⟩), .inl rfl⟩
  | publish cq rq w => exact ⟨.inl rfl, .inr (.inl ⟨w, rfl⟩)⟩

/-- The step that takes the input `i`. -/
theorem takeInput_fifo {s t : State} {i : Input} (hseq : s.sequencerOk = true) (hcontrol : s.controlOk = true)
    (hi : i ≠ .hardReset) (h : takeInput i s = .next t) : FifoStep s.cmdq t.cmdq ∧ FifoStep s.resq t.resq := by
  by_cases hw : i = .worker
  · subst hw
    exact (WorkerQueueStep.workerTurn hseq h).fifo
  · exact (ControlQueueStep.takeInput hcontrol hw hi h).fifo

/-- Settles O36: a turn of W is a `WorkerQueueStep`, every other input but a hard reset a `ControlQueueStep`. -/
theorem queuesAreFifo : Obligations.QueuesAreFifo := fun s _ hseq hcontrol hi h =>
  takeInput_fifo (s := { s with env := s.env.nextInput.2 }) hseq hcontrol hi h

end Sys2Proof.Machine
end

section
/-! PROOFS. The decoder and the encoder of the three formats, and the operands that are put together from bytes (R90 to R92,
R96, R98, R100, R101, R105, R106). -/

namespace Sys2Proof

open Sys2Proof.Machine

/-! ### Format CMDQ32 -/

/-- `tag` is bits 26:24 (R90). -/
theorem Command.toNat_tag_ofWord (w : Word) : (Command.ofWord w).tag.toNat = w.toNat / 2 ^ 24 % 8 := by
  simp [Command.ofWord, Nat.shiftRight_eq_div_pow]

/-- The operand of SETPC is bits 23:0, extended by zeros (R90, R92). -/
theorem Command.arg_ofWord_setWidth (w : Word) :
    (Command.ofWord w).arg.setWidth 32 = BitVec.ofNat 32 (w.toNat % 2 ^ 24) := by
  apply BitVec.eq_of_toNat_eq
  simp [Command.ofWord]

/-- Settles O3: the decoder looks at its two fields alone. -/
theorem commandWordDecodesByTag : Obligations.CommandWordDecodesByTag := fun w => by
  rw [← Command.toNat_tag_ofWord, ← Command.arg_ofWord_setWidth]
  rfl

/-- The sum that forms the command word of SETPC carries nothing into `tag` (R92, R101, R106). -/
theorem toNat_setpcWord {n : Word} (h : n.toNat < 2 ^ 24) : (setpcWord n).toNat = 0x03000000 + n.toNat := by
  simp only [setpcWord, BitVec.toNat_add, BitVec.toNat_ofNat]
  omega

theorem decode_setpcWord {n : Word} (h : n.toNat < 2 ^ 24) : decode (.cmdq (setpcWord n)) = some (.setpc n) := by
  have htag : (setpcWord n).toNat / 2 ^ 24 % 8 = 3 := by rw [toNat_setpcWord h]; omega
  have harg : (setpcWord n).toNat % 2 ^ 24 = n.toNat := by rw [toNat_setpcWord h]; omega
  rw [commandWordDecodesByTag, htag, harg, BitVec.ofNat_toNat, BitVec.setWidth_eq]
  rfl

/-! ### Format NANDCMD8 -/

/-- Settles O4: the decoder compares with the four opcodes in turn. -/
theorem nandOpcodesAreTheWholeSet : Obligations.NandOpcodesAreTheWholeSet := fun b i => by
  constructor
  · intro h
    simp only [decode, decodeNandByte] at h
    split_ifs at h with hreset hid hsetup hconfirm <;> cases h
    · exact .inl ⟨hreset, rfl⟩
    · exact .inr (.inl ⟨hid, rfl⟩)
    · exact .inr (.inr (.inl ⟨hsetup, rfl⟩))
    · exact .inr (.inr (.inr ⟨hconfirm, rfl⟩))
  · rintro (⟨rfl, rfl⟩ | ⟨rfl, rfl⟩ | ⟨rfl, rfl⟩ | ⟨rfl, rfl⟩) <;> rfl

/-! ### Format SERIAL8 -/

/-- The code of a host byte is fetched whole, and no byte after it (R100, R105). -/
theorem fetchSerial_encode {i : Instr} {bs : List Byte} (rest : List Byte) (h : encode i = .serial bs) :
    fetchSerial (bs ++ rest) = .complete i rest := by
  cases i <;> cases h <;> rfl

/-- `'3'` waits for its three argument bytes (R105). -/
theorem fetchSerial_incomplete : ∀ {rest : List Byte}, rest.length < 3 → fetchSerial (0x33#8 :: rest) = .incomplete
  | [], _ | [_], _ | [_, _], _ => rfl
  | _ :: _ :: _ :: _, h => by simp only [List.length_cons] at h; omega

/-- A byte that is none of `'0'` to `'5'` is no command (R100, R199). -/
theorem fetchSerial_unknown {b : Byte} (rest : List Byte) (h : ¬ (0x30 ≤ b.toNat ∧ b.toNat ≤ 0x35)) :
    fetchSerial (b :: rest) = .unknown rest := by
  have hne (c : Byte) (hc : 0x30 ≤ c.toNat ∧ c.toNat ≤ 0x35) : b ≠ c := fun e => h (e ▸ hc)
  simp [fetchSerial, hne 0x30#8, hne 0x31#8, hne 0x32#8, hne 0x33#8, hne 0x34#8, hne 0x35#8]

/-- Settles O5: the three answers of `fetchSerial` to a pending byte. -/
theorem hostBytesTellTheirLength : Obligations.HostBytesTellTheirLength :=
  ⟨fun _ rest _ h => fetchSerial_encode rest h, fun _ h => fetchSerial_incomplete h,
    fun _ rest h => fetchSerial_unknown rest h⟩

/-! ### The decoder and the encoder -/

/-- A host byte's code holds it and nothing more, so that decoding finds it again. -/
theorem decode_encode_of_serial {i : Instr} {bs : List Byte} (h : encode i = .serial bs) :
    decode (encode i) = some i := by
  have hfetch : fetchSerial bs = .complete i [] := by simpa using fetchSerial_encode [] h
  simp only [h, decode, hfetch]

/-- Settles O1, format by format: the words of R106, of which SETPC's alone carries an operand, the opcodes of R98, and
the host bytes of R100. -/
theorem decodeAfterEncode : Obligations.DecodeAfterEncode := fun i hwf => by
  cases i
  case setpc n => exact decode_setpcWord (of_decide_eq_true hwf)
  case readId | readPage | rstpc | getdrv | getinfo | noOp => rfl
  case nandReset | nandReadId | nandReadSetup | nandReadConfirm => rfl
  all_goals exact decode_encode_of_serial rfl

/-- SETPC alone has an operand that can be too large (R92). -/
theorem Instr.wellFormed_of_ne_setpc {i : Instr} (h : ∀ n, i ≠ .setpc n) : i.wellFormed = true := by
  cases i
  case setpc n => exact absurd rfl (h n)
  all_goals rfl

theorem decodeCommand_wellFormed (c : Command) : (decodeCommand c).wellFormed = true := by
  fun_cases decodeCommand c
  case case4 =>
    have harg : (c.arg.setWidth 32).toNat < 2 ^ 24 := by
      rw [BitVec.toNat_setWidth]
      exact (Nat.mod_le ..).trans_lt c.arg.isLt
    exact decide_eq_true harg
  all_goals rfl

/-- Settles O2: a tag of 3 brings a 24-bit argument, and the two other formats have no SETPC. -/
theorem decodedInstructionsAreWellFormed : Obligations.DecodedInstructionsAreWellFormed := fun c i h => by
  cases c with
  | cmdq w =>
    cases h
    exact decodeCommand_wellFormed _
  | nandcmd b =>
    obtain ⟨-, rfl⟩ | ⟨-, rfl⟩ | ⟨-, rfl⟩ | ⟨-, rfl⟩ := (nandOpcodesAreTheWholeSet b i).mp h <;> rfl
  | serial bs =>
    simp only [decode] at h
    split at h <;> cases h
    rename_i hfetch
    have hhost : isHostByte i = true := isHostByte_of_fetchSerial hfetch
    exact Instr.wellFormed_of_ne_setpc fun n e => by cases e; cases hhost

/-- Settles O6, word by word; the word of SETPC is a sum, and the host bytes are a whole code. -/
theorem specWordsDecode : Obligations.SpecWordsDecode :=
  ⟨decodeAfterEncode .readId rfl, rfl, rfl, decodeAfterEncode (.setpc 0x11234#32) rfl, rfl,
    decodeAfterEncode .nandReadId rfl, decodeAfterEncode (.hostSetCounter 0x34#8 0x12#8 0x01#8) rfl⟩

/-! ### Operands put together from bytes -/

/-- The three argument bytes of `'3'` come lowest first, and of the last one bit counts (R101). -/
theorem toNat_hostPageNumber (b0 b1 b2 : Byte) :
    (hostPageNumber b0 b1 b2).toNat = b0.toNat + 256 * b1.toNat + 65536 * (b2.toNat % 2) := by
  have h0 := b0.isLt
  have h1 := b1.isLt
  simp only [hostPageNumber, BitVec.toNat_setWidth, BitVec.toNat_append, BitVec.extractLsb'_toNat, Nat.shiftRight_zero]
  rw [← Nat.shiftLeft_add_eq_or_of_lt h1, ← Nat.shiftLeft_add_eq_or_of_lt h0]
  simp only [Nat.shiftLeft_eq]
  omega

theorem toNat_hostPageNumber_lt (b0 b1 b2 : Byte) : (hostPageNumber b0 b1 b2).toNat < 2 ^ 17 := by
  rw [toNat_hostPageNumber]
  omega

/-- Settles O7: the page number has 17 bits, so that its command word is a SETPC of it. -/
theorem hostPageNumberArithmetic : Obligations.HostPageNumberArithmetic := fun b0 b1 b2 => by
  have hlt := toNat_hostPageNumber_lt b0 b1 b2
  have hfits : (hostPageNumber b0 b1 b2).toNat < 2 ^ 24 := hlt.trans (by norm_num)
  exact ⟨toNat_hostPageNumber b0 b1 b2, hlt, toNat_setpcWord hfits, decode_setpcWord hfits⟩

/-- A field of `len` bits from bit `start` on is a quotient and a remainder. -/
theorem toNat_field (w : Word) (start len : Nat) : (w.extractLsb' start len).toNat = w.toNat / 2 ^ start % 2 ^ len := by
  rw [BitVec.extractLsb'_toNat, Nat.shiftRight_eq_div_pow]

/-- A field of at most 8 bits fills its byte up with zeros. -/
theorem toNat_field_byte (w : Word) (start : Nat) {len : Nat} (h : len ≤ 8) :
    ((w.extractLsb' start len).setWidth 8).toNat = w.toNat / 2 ^ start % 2 ^ len := by
  rw [BitVec.toNat_setWidth_of_le h, toNat_field]

/-- Settles O8, field by field. -/
theorem addressBytesAreTheFiveFields : Obligations.AddressBytesAreTheFiveFields := fun page column => by
  have hcolumnHigh := toNat_field_byte column 8 (len := 5) (by decide)
  have hrowHigh := toNat_field_byte page 16 (len := 1) (by decide)
  simp only [addressBytes, List.map, toNat_field, hcolumnHigh, hrowHigh]
  norm_num

end Sys2Proof
end

section
/-! PROOFS. That a step answers a next state: what each line of an operation needs for it, and that the invariant provides it
(R104, R126, R166, R210). -/

namespace Sys2Proof.Machine

/-! ### The lines that can fault -/

/-- What is enough for a line to answer a next state: a store asks for an index inside its destination (R27, R38), READPAGE's
call of `ReadPage` for a geometry (R28), and no other line for anything. -/
def Micro.CanRun (m : Micro) (f : Frame) (s : State) : Prop :=
  match m with
  | .sampleStore d => s.byteIdx < destSize s.params d
  | .clearByte => f.loc < s.params.bufSize
  | .beginRead => s.geom.isSome = true
  | _ => True

theorem State.exists_storeByte {s : State} {d : Dest} (b : Byte) (h : s.byteIdx < destSize s.params d) :
    ∃ t, s.storeByte d b = some t := by
  cases d with
  | buf => exact ⟨_, if_pos h⟩
  | bootId => exact ⟨_, if_pos h⟩

theorem runMicro_next {m : Micro} {f : Frame} {s : State} (fs : List Frame) (h : m.CanRun f s) :
    ∃ t, runMicro m f fs s = .next t := by
  cases m
  case sampleStore d =>
    obtain ⟨t, ht⟩ :=
      State.exists_storeByte (s := ({ s with env := s.env.sample.2 } : State).emit (.sample s.env.sample.1)) (d := d)
        s.env.sample.1 h
    exact ⟨t.advance f fs, by simp only [runMicro, ht]⟩
  case clearByte =>
    have hloc : f.loc < s.params.bufSize := h
    simp only [runMicro, if_pos hloc]
    split_ifs <;> exact ⟨_, rfl⟩
  case beginRead =>
    obtain ⟨g, hg⟩ := Option.isSome_iff_exists.mp h
    exact ⟨_, by simp only [runMicro, hg]; rfl⟩
  case whileIdx | rejectNoPage | checkReady | endReadId | endReadPage =>
    simp only [runMicro]
    split <;> exact ⟨_, rfl⟩
  all_goals exact ⟨_, rfl⟩

/-- A micro-step answers a next state when the line it stands at can run. -/
theorem microStep_next {s : State}
    (h : ∀ f fs m, s.seq = f :: fs → f.micro? = some m → m.CanRun f s) : ∃ t, microStep s = .next t := by
  unfold microStep
  split
  · exact ⟨_, rfl⟩
  · rename_i f fs hseq
    split
    · exact ⟨_, rfl⟩
    · rename_i m hline
      exact runMicro_next fs (h f fs m hseq hline)

/-- The first line of an operation that begins, when it can run. -/
theorem microStep_next_at {s : State} {f : Frame} {fs : List Frame} {m : Micro} (hseq : s.seq = f :: fs)
    (hline : f.micro? = some m) (hrun : m.CanRun f s) : ∃ t, microStep s = .next t := by
  rw [microStep_at s f fs m hseq hline]
  exact runMicro_next fs hrun

/-! ### Every instruction from an idle sequencer -/

theorem State.commandEntry_idle {s : State} (o : Op) (h : s.seq = []) :
    s.commandEntry o = { s with seq := settle [o.start] } := by
  simp [State.commandEntry, h, outermostOp]

theorem State.busEntry_idle {s : State} (b : Byte) (frames : List Frame) (h : s.seq = []) :
    s.busEntry b frames = { s with seq := settle frames } := by
  simp [State.busEntry, h, busOpcode]

theorem State.pageRead_idle {s : State} {g : Geometry} (b : Byte) (line : Nat) (h : s.seq = []) (hgeom : s.geom = some g) :
    s.pageRead b line =
      microStep { s with seq := settle [{ op := .readPage s.pageCounter g.payload, line := line, loc := 0 }] } := by
  simp [State.pageRead, State.busEntry_idle _ _ h, h, busOpcode, hgeom]

/-- A host byte's step never stops, whatever the sequencer does: a transaction that holds is a step, too (R190). -/
theorem exec_hostByte_next {i : Instr} (s : State) (hi : isHostByte i = true) : ∃ t, exec i s = .next t := by
  cases i <;> try cases hi
  case hostGetDrive =>
    simp only [exec, execHostGetDrive]
    split <;> exact ⟨_, rfl⟩
  all_goals exact ⟨_, rfl⟩

/-- Settles O55: the operation of an instruction begins with a line that needs nothing, and every other instruction ends
in its one step. -/
theorem everyInstructionAnswersNext : Obligations.EveryInstructionAnswersNext := fun s i hseq hgeom => by
  cases i
  case readId | readPage =>
    simp only [exec, execReadId, execReadPage, State.commandEntry_idle _ hseq]
    exact microStep_next_at rfl rfl trivial
  case setpc n =>
    simp only [exec, execSetpc]
    split_ifs <;> exact ⟨_, rfl⟩
  case rstpc | getdrv | getinfo | noOp => exact ⟨_, rfl⟩
  case nandReset | nandReadId =>
    simp only [exec, execNandReset, execNandReadId, State.busEntry_idle _ _ hseq]
    exact microStep_next_at rfl rfl trivial
  case nandReadSetup | nandReadConfirm =>
    obtain ⟨g, hg⟩ := Option.isSome_iff_exists.mp (hgeom (by decide))
    simp only [exec, execNandReadSetup, execNandReadConfirm, State.pageRead_idle _ _ hseq hg]
    exact microStep_next_at rfl rfl trivial
  all_goals exact exec_hostByte_next s rfl

/-! ### Where the lines that can fault stand -/

/-- A sample-and-store is the thirteenth line of `ReadBytes` (R126 line 10d). -/
theorem Frame.of_sampleStore {f : Frame} {d : Dest} (h : f.micro? = some (.sampleStore d)) :
    ∃ count, f.op = .readBytes count d ∧ f.line = 12 := by
  obtain ⟨hline, hget⟩ := List.getElem?_eq_some_iff.mp h
  have hmem : .sampleStore d ∈ f.op.body := hget ▸ List.getElem_mem hline
  obtain ⟨op, line, loc⟩ := f
  cases op <;> simp [Op.body, latchCycle, addressCycle, addressBytes] at hmem
  case readBytes count dest =>
    subst hmem
    refine ⟨count, rfl, ?_⟩
    have hlt : line < 17 := hline
    interval_cases line <;> simp [Op.body] at hget ⊢

/-- A byte of the clear is the second line of READPAGE (R166 line 2). -/
theorem Frame.of_clearByte {f : Frame} (h : f.micro? = some .clearByte) : f.op = .cmdReadPage ∧ f.line = 1 := by
  obtain ⟨hline, hget⟩ := List.getElem?_eq_some_iff.mp h
  have hmem : .clearByte ∈ f.op.body := hget ▸ List.getElem_mem hline
  obtain ⟨op, line, loc⟩ := f
  cases op <;> simp [Op.body, latchCycle, addressCycle, addressBytes] at hmem
  refine ⟨rfl, ?_⟩
  have hlt : line < 4 := hline
  interval_cases line <;> simp [Op.body] at hget ⊢

/-! ### What the invariant provides -/

/-- In RUN the identification succeeded, so that there is a geometry (R216, R217, R242). -/
theorem State.geom_isSome_of_run {s : State} (hphase : s.phaseOk = true) (hp : s.phase = .run) : s.geom.isSome = true := by
  simp only [State.phaseOk, hp, State.identified, Bool.and_eq_true, decide_eq_true_eq, Bool.not_eq_true'] at hphase
  obtain ⟨⟨-, hflags⟩, hnoError⟩ := hphase
  rw [hflags] at hnoError
  simp only [Flags.anyError, Bool.or_eq_false_iff] at hnoError
  obtain ⟨⟨hgeom, -⟩, -⟩ := hnoError
  simpa using hgeom

/-- READPAGE is in progress in RUN alone: the startup sequence calls it nowhere (R218, R242). -/
theorem State.phase_run_of_cmdReadPage {s : State} {f : Frame} {fs : List Frame} (hok : s.sequencerOk = true)
    (hseq : s.seq = f :: fs) (hop : f.op = .cmdReadPage) : s.phase = .run := by
  have hlinked : linked (f :: fs) = true := hseq ▸ s.linked_of_sequencerOk hok
  have hnoCaller (o o' : Op) (h : o.Calls o') (_ : o ≠ .cmdReadPage) : o' ≠ .cmdReadPage := by
    cases h <;> simp
  simp only [State.sequencerOk, Bool.and_eq_true] at hok
  obtain ⟨-, hplace⟩ := hok
  split at hplace
  · rw [hseq] at hplace
    exact absurd hop (head_of_outermost hnoCaller hlinked (of_decide_eq_true hplace) (by simp))
  · assumption
  · assumption
  · simp [hseq] at hplace
  · cases hplace

/-- Every line that the sequencer of a state meeting the invariant stands at can run. -/
theorem State.canRun_of_inv {s : State} {f : Frame} {fs : List Frame} {m : Micro} (hseqOk : s.sequencerOk = true)
    (hstores : s.storesOk = true) (hphase : s.phaseOk = true) (hseq : s.seq = f :: fs) (hline : f.micro? = some m) :
    m.CanRun f s := by
  have hstore := List.all_eq_true.mp hstores f (by simp [hseq])
  cases m
  case sampleStore d =>
    obtain ⟨count, hop, hpos⟩ := Frame.of_sampleStore hline
    obtain ⟨hcount, hidx⟩ : count ≤ destSize s.params d ∧ s.byteIdx < count := by simpa [hop, hpos] using hstore
    exact hidx.trans_le hcount
  case clearByte =>
    obtain ⟨hop, hpos⟩ := Frame.of_clearByte hline
    have hidx : f.loc < s.params.bufSize := by simpa [hop, hpos] using hstore
    exact hidx
  case beginRead =>
    have hop : f.op = .cmdReadPage := Op.eq_cmdReadPage_of_beginRead (List.mem_of_getElem? hline)
    exact State.geom_isSome_of_run hphase (State.phase_run_of_cmdReadPage hseqOk hseq hop)
  all_goals exact trivial

theorem microStep_next_of_inv {s : State} (hseqOk : s.sequencerOk = true) (hstores : s.storesOk = true)
    (hphase : s.phaseOk = true) : ∃ t, microStep s = .next t :=
  microStep_next fun _ _ _ hseq hline => State.canRun_of_inv hseqOk hstores hphase hseq hline

/-! ### The turns of both agents -/

/-- A Command is no opcode of the NAND bus (R91, R98). -/
theorem decodeCommand_not_pageRead (c : Command) :
    ¬ (decodeCommand c = .nandReadSetup ∨ decodeCommand c = .nandReadConfirm) := by
  fun_cases decodeCommand c <;> simp

theorem exec_workerInstr_next {s : State} (hseqOk : s.sequencerOk = true) (hstores : s.storesOk = true)
    (hphase : s.phaseOk = true) (hp : s.phase = .run) (hw : s.wstate = .execute) :
    ∃ t, exec s.workerInstr s = .next t := by
  obtain hidle | hinside := s.sequencerOk_execute hseqOk hp hw
  · rw [s.workerInstr_command (by rw [hidle]; rfl)]
    exact everyInstructionAnswersNext s _ hidle fun h => absurd h (decodeCommand_not_pageRead _)
  · rw [exec_workerInstr_inside hinside]
    exact microStep_next_of_inv hseqOk hstores hphase

theorem workerTurn_next {s : State} (hseqOk : s.sequencerOk = true) (hstores : s.storesOk = true)
    (hphase : s.phaseOk = true) : ∃ t, workerTurn s = .next t := by
  cases hp : s.phase with
  | halted => exact ⟨s, workerTurn_halted s hp⟩
  | init =>
    rw [workerTurn_init hp]
    exact microStep_next_of_inv hseqOk hstores hphase
  | run =>
    cases hw : s.wstate with
    | waitForCommand => exact ⟨_, workerTurn_wait s hp hw⟩
    | publishResult => exact ⟨_, workerTurn_publish s hp hw⟩
    | execute =>
      rw [workerTurn_execute s hp hw]
      exact exec_workerInstr_next hseqOk hstores hphase hp hw

/-- C serves nothing but host bytes, and a transaction that does not complete is a hold (R40, R100, R191). -/
theorem controlTurn_next {s : State} (hok : s.controlOk = true) : ∃ t, controlTurn s = .next t := by
  unfold controlTurn
  split
  · exact ⟨_, rfl⟩
  · split
    case h_6 i st hpos =>
      have hi : isHostByte i = true := by rwa [State.controlOk, hpos] at hok
      exact exec_hostByte_next s hi
    case h_7 =>
      split
      case h_4 i rest hfetch => exact exec_hostByte_next _ (isHostByte_of_fetchSerial hfetch)
      all_goals exact ⟨_, rfl⟩
    all_goals exact ⟨_, rfl⟩

theorem takeInput_next {s : State} (i : Input) (hseqOk : s.sequencerOk = true) (hcontrol : s.controlOk = true)
    (hstores : s.storesOk = true) (hphase : s.phaseOk = true) : ∃ t, takeInput i s = .next t := by
  cases i with
  | worker => exact workerTurn_next hseqOk hstores hphase
  | control => exact controlTurn_next hcontrol
  | port | hostByte | argTimeout | hardReset => exact ⟨_, rfl⟩

/-- Settles O60: of the invariant, the sequencer's stack, the stores, the phase and C's position rule out every fault. -/
theorem noStepFaultsOrRefuses : Obligations.NoStepFaultsOrRefuses := fun s hinv => by
  simp only [State.inv, Bool.and_eq_true] at hinv
  obtain ⟨⟨⟨⟨⟨⟨⟨⟨⟨⟨hseqOk, hcontrol⟩, -⟩, -⟩, -⟩, -⟩, -⟩, hstores⟩, -⟩, hphase⟩, -⟩ := hinv
  exact takeInput_next (s := { s with env := s.env.nextInput.2 }) _ hseqOk hcontrol hstores hphase

end Sys2Proof.Machine
end

section
/-! PROOFS. The bus primitives (R120, R122, R124, R126): a stretch of plain lines by its pins and events, the RY poll, and
the data-out cycles of `ReadBytes`. Every run is a `MicroRun` of a stable predicate, so that a caller can compose it. -/

namespace Sys2Proof.Machine

/-! ### Runs in which the operation stays the same -/

theorem MicroRun.congr {P : State → Prop} {n n' : Nat} {s t t' : State} (h : MicroRun P n s t) (hn : n = n')
    (ht : t = t') : MicroRun P n' s t' := hn ▸ ht ▸ h

/-- One line of an operation is a run of one micro-step. -/
theorem MicroRun.line {P : State → Prop} {s t : State} {f : Frame} {fs : List Frame} {m : Micro} (hp : P s)
    (hs : s.seq = f :: fs) (hm : f.micro? = some m) (h : runMicro m f fs s = .next t) : MicroRun P 1 s t :=
  .one hp ((microStep_at s f fs m hs hm).trans h)

/-- A stable predicate is kept as long as the same operation stands on the same callers. -/
theorem Stable.of_sameOp {P : State → Prop} (hP : Stable P) {s t : State} {f g : Frame} {fs : List Frame} (hp : P s)
    (hs : s.seq = f :: fs) (ht : t.seq = g :: fs) (hop : g.op = f.op) (hphase : t.phase = s.phase)
    (hwstate : t.wstate = s.wstate) (hinputs : t.env.inputs = s.env.inputs) : P t := by
  refine hP s t hp ?_ hphase hwstate hinputs
  rw [hs, ht]
  cases fs <;> simp [outermostOp, hop]

/-! ### Stretches of pin events and waits -/

/-- The pins after a line; only a pin or I/O line event changes them (R21, R22). -/
def Micro.onPins (p : Pins) : Micro → Pins
  | .setDir d => { p with ioDir := d }
  | .setOut b => { p with ioOut := b }
  | .drive q v => p.set q v
  | _ => p

/-- The events a plain line appends to the pin trace (R33). -/
def Micro.events : Micro → List PinEvent
  | .setDir d => [.ioDir d]
  | .setOut b => [.ioOut b]
  | .drive p v => [.pin p v]
  | .wait t => [.wait t]
  | _ => []

theorem Micro.plain_getD (m : Micro) (s : State) :
    m.plain.getD id s = { s with pins := m.onPins s.pins, trace := s.trace ++ m.events } := by
  cases m
  case setDir | setOut | drive | wait => rfl
  all_goals simp [Micro.plain, Micro.onPins, Micro.events]

/-- Plain lines in order change the pins and append their events, and touch nothing else. -/
theorem plainEffect_eq : ∀ (ms : List Micro) (s : State),
    plainEffect ms s = { s with pins := ms.foldl Micro.onPins s.pins, trace := s.trace ++ ms.flatMap Micro.events }
  | [], s => by simp [plainEffect]
  | m :: ms, s => by simp [plainEffect, Micro.plain_getD, plainEffect_eq ms]

/-- A stretch of plain lines that stands in the operation at the sequencer's position runs to its end. -/
theorem run_stretch {P : State → Prop} (hP : Stable P) {s : State} {f : Frame} {fs : List Frame} (ms : List Micro)
    (hne : ms ≠ []) (hplain : ∀ m ∈ ms, m.plain.isSome = true) (hs : s.seq = f :: fs)
    (hpre : ms <+: f.op.body.drop f.line) (hp : P s) :
    MicroRun P ms.length s
      { s with
        seq := settle ({ f with line := f.line + ms.length } :: fs)
        pins := ms.foldl Micro.onPins s.pins
        trace := s.trace ++ ms.flatMap Micro.events } := by
  have hlines (i : Nat) (hi : i < ms.length) : f.op.body[f.line + i]? = some ms[i] := by
    obtain ⟨rest, hrest⟩ := hpre
    rw [← List.getElem?_drop, ← hrest, List.getElem?_append_left hi, List.getElem?_eq_getElem hi]
  have hrun := run_plain hP ms s f fs hne hplain hs hlines hp
  rwa [plainEffect_eq] at hrun

/-- An operation of plain lines alone runs from its first line to its last. -/
theorem run_plainOp {P : State → Prop} (hP : Stable P) {s : State} {o : Op} {fs : List Frame} (hne : o.body ≠ [])
    (hplain : ∀ m ∈ o.body, m.plain.isSome = true) (hs : s.seq = o.start :: fs) (hp : P s) :
    MicroRun P o.body.length s
      { s with
        seq := settle ({ op := o, line := o.body.length, loc := 0 } :: fs)
        pins := o.body.foldl Micro.onPins s.pins
        trace := s.trace ++ o.body.flatMap Micro.events } :=
  (run_stretch hP o.body hne hplain hs ⟨[], List.append_nil _⟩ hp).congr rfl (by simp [Op.start])

/-! ### Command and address cycles -/

/-- Command and single address cycles are pin events and waits alone (R120, R122). -/
theorem latchCycle_plain (latch : Pin) (hold : TimeParam) (b : Byte) :
    ∀ m ∈ latchCycle latch hold b, m.plain.isSome = true := by
  simp [latchCycle, Micro.plain]

/-- `AssertCommand(b)` as a run that a caller can compose (R120). -/
theorem run_assertCommand {P : State → Prop} (hP : Stable P) {s : State} {b : Byte} {fs : List Frame}
    (hs : s.seq = (Op.assertCommand b).start :: fs) (hp : P s) :
    MicroRun P 10 s
      { s with
        seq := settle ({ op := .assertCommand b, line := 10, loc := 0 } :: fs)
        pins := { s.pins with ioDir := .output, ioOut := b, cle := false, cen := false, wen := true }
        trace := s.trace ++ commandTrace b } :=
  run_plainOp hP (o := .assertCommand b) (List.cons_ne_nil _ _) (latchCycle_plain .cle .tCLH b) hs hp

/-- `AssertSingleAddressByte(b)` as a run that a caller can compose (R122). -/
theorem run_assertSingleAddressByte {P : State → Prop} (hP : Stable P) {s : State} {b : Byte} {fs : List Frame}
    (hs : s.seq = (Op.assertSingleAddressByte b).start :: fs) (hp : P s) :
    MicroRun P 10 s
      { s with
        seq := settle ({ op := .assertSingleAddressByte b, line := 10, loc := 0 } :: fs)
        pins := { s.pins with ioDir := .output, ioOut := b, ale := false, cen := false, wen := true }
        trace := s.trace ++ addressByteTrace b } :=
  run_plainOp hP (o := .assertSingleAddressByte b) (List.cons_ne_nil _ _) (latchCycle_plain .ale .tALH b) hs hp

/-- Settles O16: the ten lines are plain. -/
theorem assertCommandRuns : Obligations.AssertCommandRuns := fun _ _ _ hs =>
  (run_assertCommand stable_true hs trivial).runFor_eq fun _ _ => rfl

/-- Settles O17: the ten lines are plain, as those of O16. -/
theorem assertSingleAddressByteRuns : Obligations.AssertSingleAddressByteRuns := fun _ _ _ hs =>
  (run_assertSingleAddressByte stable_true hs trivial).runFor_eq fun _ _ => rfl

/-- The five address bytes are the five fields that O8 gives by arithmetic (R96). -/
theorem addressBytes_eq (page column : Word) :
    addressBytes page column =
      [BitVec.ofNat 8 (column.toNat % 256), BitVec.ofNat 8 (column.toNat / 256 % 32),
       BitVec.ofNat 8 (page.toNat % 256), BitVec.ofNat 8 (page.toNat / 256 % 256),
       BitVec.ofNat 8 (page.toNat / 65536 % 2)] := by
  have hfields := congrArg (List.map (BitVec.ofNat 8)) (addressBytesAreTheFiveFields page column)
  simpa [Function.comp_def] using hfields

theorem assertRowColumnAddress_plain (page column : Word) :
    ∀ m ∈ (Op.assertRowColumnAddress page column).body, m.plain.isSome = true := by
  simp [Op.body, addressBytes, addressCycle, Micro.plain]

/-- The fifth address byte, the row's high bit, stays on `IO_OUT` (R124). -/
theorem assertRowColumnAddress_pins (page column : Word) (p : Pins) :
    (Op.assertRowColumnAddress page column).body.foldl Micro.onPins p =
      { p with
        ioDir := .output, ioOut := BitVec.ofNat 8 (page.toNat / 65536 % 2)
        ale := false, cen := false, wen := true } := by
  simp [Op.body, addressBytes_eq, addressCycle, Micro.onPins, Pins.set]

theorem assertRowColumnAddress_events (page column : Word) :
    (Op.assertRowColumnAddress page column).body.flatMap Micro.events = rowColumnTrace (addressBytes page column) := rfl

/-- `AssertRowColumnAddress(page, column)` as a run that a caller can compose (R124). -/
theorem run_assertRowColumnAddress {P : State → Prop} (hP : Stable P) {s : State} {page column : Word} {fs : List Frame}
    (hs : s.seq = (Op.assertRowColumnAddress page column).start :: fs) (hp : P s) :
    MicroRun P 35 s
      { s with
        seq := settle ({ op := .assertRowColumnAddress page column, line := 35, loc := 0 } :: fs)
        pins := { s.pins with
          ioDir := .output, ioOut := BitVec.ofNat 8 (page.toNat / 65536 % 2), ale := false, cen := false, wen := true }
        trace := s.trace ++ rowColumnTrace (addressBytes page column) } := by
  have hrun := run_plainOp hP (o := .assertRowColumnAddress page column) (List.cons_ne_nil _ _)
    (assertRowColumnAddress_plain page column) hs hp
  rwa [assertRowColumnAddress_pins, assertRowColumnAddress_events] at hrun

/-- Settles O18, with the bytes by `addressBytes_eq`. -/
theorem assertRowColumnAddressRuns : Obligations.AssertRowColumnAddressRuns := fun s page column fs hs => by
  rw [← addressBytes_eq]
  exact (run_assertRowColumnAddress stable_true hs trivial).runFor_eq fun _ _ => rfl

/-! ### The RY poll -/

/-- The state after `k` polls that read 0, with `ys` the answers still to come. -/
def State.afterPolls (s : State) (k : Nat) (ys : List Level) : State :=
  { s with
    ryPolls := s.ryPolls + k
    trace := s.trace ++ List.replicate k (.ry false)
    env := { s.env with ryIn := ys } }

theorem State.polling_iff (s : State) : s.polling = true ↔ ∃ f fs, s.seq = f :: fs ∧ f.micro? = some .poll := by
  unfold State.polling
  split <;> simp_all

/-- A poll that reads 0 below the timeout is followed by another poll (R127). -/
theorem microStep_poll_again {s : State} {ys : List Level} (hpoll : s.polling = true)
    (hwait : s.params.ryTimeout ≠ some (s.ryPolls + 1)) (hry : s.env.ryIn = false :: ys) :
    microStep s = .next (s.afterPolls 1 ys) := by
  obtain ⟨f, fs, hs, hm⟩ := s.polling_iff.mp hpoll
  rw [microStep_at s f fs .poll hs hm]
  simp [runMicro, Env.ry_cons s.env false ys hry, State.afterPoll, State.emit, State.afterPolls, hwait]

/-- While RY stays 0 below the timeout, W polls (R127). -/
theorem run_polls {P : State → Prop} (hP : Stable P) : ∀ (k : Nat) {s : State} {ys : List Level}, s.polling = true →
    (∀ i < k, s.params.ryTimeout ≠ some (s.ryPolls + i + 1)) → s.env.ryIn = List.replicate k false ++ ys → P s →
    MicroRun P k s (s.afterPolls k ys)
  | 0, s, ys, _, _, hry, _ => by
    have hys : s.env.ryIn = ys := hry
    simp [MicroRun, State.afterPolls, ← hys]
  | k + 1, s, ys, hpoll, hwait, hry, hp => by
    have hstep := microStep_poll_again hpoll (hwait 0 k.succ_pos) hry
    have hwait' (i : Nat) (hi : i < k) : s.params.ryTimeout ≠ some (s.ryPolls + 1 + i + 1) := by
      rw [Nat.add_right_comm s.ryPolls 1 i]
      exact hwait (i + 1) (Nat.succ_lt_succ hi)
    have ih := run_polls hP k (s := s.afterPolls 1 (List.replicate k false ++ ys)) hpoll hwait' rfl
      (hP s _ hp rfl rfl rfl rfl)
    refine ⟨hp, _, hstep, ih.congr rfl ?_⟩
    simp [State.afterPolls, List.replicate_succ, Nat.add_assoc, Nat.add_comm 1]

/-- Settles O21: without a timeout no number of polls is the last. -/
theorem pollingWithoutTimeoutHangs : Obligations.PollingWithoutTimeoutHangs := fun s k _ hpoll hnone hry =>
  (run_polls stable_true k hpoll (by simp [hnone]) hry trivial).runFor_eq fun _ _ => rfl

/-! ### `ReadBytes` up to its poll, and giving up -/

/-- `ReadBytes(count, d)` at a position. -/
def readFrame (count : Nat) (d : Dest) (line : Nat) : Frame := { op := .readBytes count d, line := line, loc := 0 }

/-- Lines 1 to 7 of R126. -/
theorem run_readBytes_setup {P : State → Prop} (hP : Stable P) {s : State} {count : Nat} {d : Dest} {fs : List Frame}
    (hs : s.seq = (Op.readBytes count d).start :: fs) (hp : P s) :
    MicroRun P 7 s
      { s with
        seq := readFrame count d 7 :: fs, ryPolls := 0
        pins := s.pins.afterRead
        trace := s.trace ++ readSetupTrace } := by
  have hpins := run_stretch hP
    [.setDir .input, .drive .cle false, .drive .ale false, .drive .wen true, .drive .ren true, .drive .cen false]
    (List.cons_ne_nil _ _) (by simp [Micro.plain]) hs ⟨_, rfl⟩ hp
  exact hpins.trans (.line (f := readFrame count d 6) (hP.of_sameOp hp hs rfl rfl rfl rfl rfl) rfl rfl rfl)

/-- The last poll below the timeout: `ReadBytes` returns `not_ready` (R127). -/
theorem runMicro_poll_giveUp {s : State} (f : Frame) (fs : List Frame) {ys : List Level}
    (hlast : s.params.ryTimeout = some (s.ryPolls + 1)) (hry : s.env.ryIn = false :: ys) :
    runMicro .poll f fs s = .next { s.afterPolls 1 ys with seq := settle fs, ret := .notReady } := by
  simp [runMicro, Env.ry_cons s.env false ys hry, State.afterPoll, State.emit, State.afterPolls, State.returnFrom, hlast]

/-- `ReadBytes` with RY reading 0 as often as the timeout says: the last poll returns to the caller (R126, R127). -/
theorem run_readBytes_givesUp {P : State → Prop} (hP : Stable P) {s : State} {count n : Nat} {d : Dest}
    {ys : List Level} {fs : List Frame} (hs : s.seq = (Op.readBytes count d).start :: fs)
    (htimeout : s.params.ryTimeout = some n) (hry : s.env.ryIn = List.replicate n false ++ ys) (hp : P s) :
    MicroRun P (7 + n) s
      { s with
        seq := settle fs, ret := .notReady, ryPolls := n
        pins := s.pins.afterRead
        trace := s.trace ++ notReadyTrace n
        env := { s.env with ryIn := ys } } := by
  obtain ⟨k, rfl⟩ : ∃ k, n = k + 1 :=
    Nat.exists_eq_succ_of_ne_zero (Nat.one_le_iff_ne_zero.mp (Params.one_le_of_ryTimeout htimeout))
  have hsetup := run_readBytes_setup hP hs hp
  have hpolls := hsetup.trans (run_polls hP k (ys := false :: ys) rfl
    (by simpa [htimeout] using fun i hi => Nat.ne_of_gt hi) (by simp [hry, List.replicate_succ'])
    (hP.of_sameOp hp hs rfl rfl rfl rfl rfl))
  refine (hpolls.trans (.line (f := readFrame count d 7) (hP.of_sameOp hp hs rfl rfl rfl rfl rfl) rfl rfl
    (runMicro_poll_giveUp _ fs ?_ rfl))).congr rfl ?_
  · simp [State.afterPolls, htimeout]
  · simp [State.afterPolls, notReadyTrace, List.replicate_succ']

/-- Settles O20: `n - 1` polls go on and the last gives up, as `run_readBytes_givesUp` has it. -/
theorem readBytesGivesUp : Obligations.ReadBytesGivesUp := fun _ _ _ _ _ _ hs htimeout hry =>
  (run_readBytes_givesUp stable_true hs htimeout hry trivial).runFor_eq fun _ _ => rfl

/-! ### The data-out cycles -/

/-- What BUF holds after the bytes `bs` have been stored from index `a` on (R68, R126 line 10d). -/
def Dest.bufAfter (d : Dest) (m : Memory) (a : Nat) (bs : List Byte) : Memory :=
  match d with
  | .buf => m.writeBytes a bs
  | .bootId => m

/-- Bytes stored into BOOT_ID at consecutive indices from `a` on (R27). -/
def IdBytes.setBytes (id : IdBytes) (a : Nat) : List Byte → IdBytes
  | [] => id
  | b :: bs => (id.set a b).setBytes (a + 1) bs

/-- What BOOT_ID holds after the bytes `bs` have been stored from index `a` on (R126 line 10d). -/
def Dest.idAfter (d : Dest) (id : IdBytes) (a : Nat) (bs : List Byte) : IdBytes :=
  match d with
  | .buf => id
  | .bootId => id.setBytes a bs

theorem Dest.bufAfter_cons (d : Dest) (m : Memory) (a : Nat) (b : Byte) (bs : List Byte) :
    d.bufAfter m a (b :: bs) = d.bufAfter (d.bufAfter m a [b]) (a + 1) bs := by
  cases d <;> rfl

theorem Dest.idAfter_cons (d : Dest) (id : IdBytes) (a : Nat) (b : Byte) (bs : List Byte) :
    d.idAfter id a (b :: bs) = d.idAfter (d.idAfter id a [b]) (a + 1) bs := by
  cases d <;> rfl

theorem State.storeByte_eq {s : State} {d : Dest} (b : Byte) (h : s.byteIdx < destSize s.params d) :
    s.storeByte d b =
      some { s with
        buf := d.bufAfter s.buf s.byteIdx [b]
        bootId := d.idAfter s.bootId s.byteIdx [b] } := by
  cases d <;> exact if_pos h

/-- Lines 10c and 10d of R126. -/
theorem runMicro_sampleStore {s : State} (f : Frame) (fs : List Frame) {d : Dest} {b : Byte} {zs : List Byte}
    (hidx : s.byteIdx < destSize s.params d) (hsample : s.env.sampleIn = b :: zs) :
    runMicro (.sampleStore d) f fs s = .next
      { s with
        seq := settle ({ f with line := f.line + 1 } :: fs)
        buf := d.bufAfter s.buf s.byteIdx [b]
        bootId := d.idAfter s.bootId s.byteIdx [b]
        trace := s.trace ++ [.sample b]
        env := { s.env with sampleIn := zs } } := by
  have hstore :=
    State.storeByte_eq (s := ({ s with env := { s.env with sampleIn := zs } } : State).emit (.sample b)) b hidx
  simp only [runMicro, Env.sample_cons s.env b zs hsample, hstore]
  rfl

/-- The state after the data-out cycles of the bytes `bs`, from the loop's test back to it (R126 line 10). -/
def State.afterBytes (s : State) (d : Dest) (bs zs : List Byte) : State :=
  { s with
    byteIdx := s.byteIdx + bs.length
    buf := d.bufAfter s.buf s.byteIdx bs
    bootId := d.idAfter s.bootId s.byteIdx bs
    trace := s.trace ++ dataTrace bs
    env := { s.env with sampleIn := zs } }

theorem State.afterBytes_nil {s : State} (d : Dest) : s.afterBytes d [] s.env.sampleIn = s := by
  cases d <;> simp [State.afterBytes, Dest.bufAfter, Dest.idAfter, Memory.writeBytes, IdBytes.setBytes, dataTrace]

theorem State.afterBytes_cons (s : State) (d : Dest) (b : Byte) (bs zs zs' : List Byte) :
    (s.afterBytes d [b] zs').afterBytes d bs zs = s.afterBytes d (b :: bs) zs := by
  simp [State.afterBytes, dataTrace, d.bufAfter_cons s.buf _ b bs, d.idAfter_cons s.bootId _ b bs, Nat.add_assoc,
    Nat.add_comm 1]

/-- A low pulse of REn from an idle REn leaves the pins as they were. -/
theorem Pins.ren_pulse {p : Pins} (h : p.ren = true) : (p.set .ren false).set .ren true = p := by
  cases p
  cases h
  rfl

/-- One data-out cycle: the seven micro-steps from the loop's test back to it (R126 line 10). -/
theorem run_byte {P : State → Prop} (hP : Stable P) {s : State} {count : Nat} {d : Dest} {b : Byte} {zs : List Byte}
    {fs : List Frame} (hs : s.seq = readFrame count d 9 :: fs) (hren : s.pins.ren = true) (hidx : s.byteIdx < count)
    (hcount : count ≤ destSize s.params d) (hsample : s.env.sampleIn = b :: zs) (hp : P s) :
    MicroRun P 7 s (s.afterBytes d [b] zs) := by
  have htest : MicroRun P 1 s { s with seq := readFrame count d 10 :: fs } := .line hp hs rfl (if_pos hidx)
  have hfall := htest.trans (run_stretch hP [.drive .ren false, .wait .tREA] (List.cons_ne_nil _ _)
    (by simp [Micro.plain]) rfl ⟨_, rfl⟩ (hP.of_sameOp hp hs rfl rfl rfl rfl rfl))
  have hstore := hfall.trans (.line (f := readFrame count d 12) (hP.of_sameOp hp hs rfl rfl rfl rfl rfl) rfl rfl
    (runMicro_sampleStore _ fs (hidx.trans_le hcount) hsample))
  have hrise := hstore.trans (run_stretch hP (f := readFrame count d 13) [.drive .ren true, .wait .tREH]
    (List.cons_ne_nil _ _) (by simp [Micro.plain]) rfl ⟨_, rfl⟩ (hP.of_sameOp hp hs rfl rfl rfl rfl rfl))
  have hback (u : State) : runMicro (.nextIdx 9) (readFrame count d 15) fs u = .next
      { u with seq := readFrame count d 9 :: fs, byteIdx := u.byteIdx + 1 } := rfl
  refine (hrise.trans (.line (hP.of_sameOp hp hs rfl rfl rfl rfl rfl) rfl rfl (hback _))).congr rfl ?_
  simp [State.afterBytes, Pins.ren_pulse hren, Micro.onPins, Micro.events, dataTrace, hs]

/-- The data-out cycles of the bytes the chip presents, as far as the count allows (R126 line 10). -/
theorem run_bytes {P : State → Prop} (hP : Stable P) : ∀ (bs : List Byte) {s : State} {count : Nat} {d : Dest}
    {zs : List Byte} {fs : List Frame}, s.seq = readFrame count d 9 :: fs → s.pins.ren = true →
    s.byteIdx + bs.length ≤ count → count ≤ destSize s.params d → s.env.sampleIn = bs ++ zs → P s →
    MicroRun P (7 * bs.length) s (s.afterBytes d bs zs)
  | [], s, _, d, zs, _, _, _, _, _, hsample, _ => by
    have hzs : s.env.sampleIn = zs := hsample
    rw [← hzs, State.afterBytes_nil]
    rfl
  | b :: bs, s, count, d, zs, fs, hs, hren, hlen, hcount, hsample, hp => by
    rw [List.length_cons] at hlen
    have hfirst := run_byte hP hs hren (by omega) hcount (zs := bs ++ zs) hsample hp
    have hrest := run_bytes hP bs (s := s.afterBytes d [b] (bs ++ zs)) (count := count) (zs := zs) hs hren
      (by simp only [State.afterBytes, List.length_singleton]; omega) hcount rfl (hP s _ hp rfl rfl rfl rfl)
    refine (hfirst.trans hrest).congr ?_ (s.afterBytes_cons d b bs zs _)
    rw [List.length_cons]
    omega

/-! ### `ReadBytes` as a whole -/

/-- Lines 8 and 9 of R126 with RY at 1: the loop of the data-out cycles begins at index 0. -/
theorem run_ready {P : State → Prop} (hP : Stable P) {s : State} {count : Nat} {d : Dest} {ys : List Level}
    {fs : List Frame} (hs : s.seq = readFrame count d 7 :: fs) (hry : s.env.ryIn = true :: ys) (hp : P s) :
    MicroRun P 2 s
      { s with
        seq := readFrame count d 9 :: fs, byteIdx := 0
        trace := s.trace ++ [.ry true]
        env := { s.env with ryIn := ys } } := by
  have hpoll : runMicro .poll (readFrame count d 7) fs s = .next
      { s with
        seq := readFrame count d 8 :: fs, trace := s.trace ++ [.ry true], env := { s.env with ryIn := ys } } := by
    simp only [runMicro, Env.ry_cons s.env true ys hry]
    rfl
  exact (MicroRun.line hp hs rfl hpoll).trans
    (.line (f := readFrame count d 8) (hP.of_sameOp hp hs rfl rfl rfl rfl rfl) rfl rfl rfl)

/-- Below the timeout no poll is the last (R127). -/
theorem ne_timeout_of_patient {p : Params} {k : Nat} (h : patient p k = true) {i : Nat} (hi : i < k) :
    p.ryTimeout ≠ some (i + 1) := fun htimeout => by
  have hk : k < i + 1 := by simpa [patient, htimeout] using h
  omega

/-- `ReadBytes` with RY reading 0 `k` times and then 1, and the chip presenting the bytes that it asks for (R126). -/
theorem run_readBytes {P : State → Prop} (hP : Stable P) {s : State} {d : Dest} {k : Nat} {bs zs : List Byte}
    {ys : List Level} {fs : List Frame} (hs : s.seq = (Op.readBytes bs.length d).start :: fs)
    (hcount : bs.length ≤ destSize s.params d) (hpatient : patient s.params k = true)
    (hry : s.env.ryIn = List.replicate k false ++ true :: ys) (hsample : s.env.sampleIn = bs ++ zs) (hp : P s) :
    MicroRun P (11 + k + 7 * bs.length) s
      { s with
        seq := settle (readFrame bs.length d 17 :: fs)
        ret := .ok, byteIdx := bs.length, ryPolls := k
        buf := d.bufAfter s.buf 0 bs
        bootId := d.idAfter s.bootId 0 bs
        pins := s.pins.afterRead
        trace := s.trace ++ readBytesTrace k bs
        env := { s.env with ryIn := ys, sampleIn := zs } } := by
  have hsetup := run_readBytes_setup hP hs hp
  have hpolls := hsetup.trans (run_polls hP k (ys := true :: ys) rfl
    (fun i hi => by simpa using ne_timeout_of_patient hpatient hi) hry (hP.of_sameOp hp hs rfl rfl rfl rfl rfl))
  have hready := hpolls.trans (run_ready hP rfl rfl (hP.of_sameOp hp hs rfl rfl rfl rfl rfl))
  have hbytes := hready.trans (run_bytes hP bs rfl rfl (Nat.zero_add _).le hcount hsample
    (hP.of_sameOp hp hs rfl rfl rfl rfl rfl))
  have htest := hbytes.trans (.line (hP.of_sameOp hp hs rfl rfl rfl rfl rfl) rfl rfl
    (if_neg (show ¬ 0 + bs.length < bs.length by omega)))
  have hreturn (u : State) : runMicro .returnOk (readFrame bs.length d 16) fs u = .next
      { u with seq := settle (readFrame bs.length d 17 :: fs), ret := .ok } := rfl
  refine (htest.trans (.line (hP.of_sameOp hp hs rfl rfl rfl rfl rfl) rfl rfl (hreturn _))).congr (by omega) ?_
  simp [State.afterBytes, State.afterPolls, readBytesTrace, readyTrace]

/-- Bytes stored from index 0 on are found there, and every other index reads as before (R68). -/
theorem Memory.read_writeBytes_zero {m : Memory} (h : m.wf = true) (bs : List Byte) (a : Nat) :
    (m.writeBytes 0 bs).read a = (bs[a]?).getD (m.read a) := by
  rw [Memory.read_writeBytes bs m 0 a h]
  by_cases ha : a < bs.length <;> simp [ha]

/-- Settles O19: `run_readBytes` into BUF, whose bytes are those `Memory.writeBytes` leaves. -/
theorem readBytesFillsTheBuffer : Obligations.ReadBytesFillsTheBuffer :=
  fun s k bs zs ys fs hs hcount hwf hpatient hry hsample => by
  refine ⟨s.buf.writeBytes 0 bs, ?_, Memory.wf_writeBytes bs s.buf 0 hwf, Memory.read_writeBytes_zero hwf bs⟩
  exact (run_readBytes stable_true hs hcount hpatient hry hsample trivial).runFor_eq fun _ _ => rfl

end Sys2Proof.Machine
end

section
/-! PROOFS. The pure decoders of the identification bytes (R144, R146, R147), and the four command cycles of the NAND bus
started on their own (R98, R140, R142, R148): while a bus operation is in progress its opcode stands on the bus, so that
each turn of the instruction is the operation's next micro-step. -/

namespace Sys2Proof.Machine

/-! ### The pure decoders -/

/-- The page-size code is the fourth byte modulo 4 (R99). -/
theorem IdBytes.pageSizeCode_eq_iff (id : IdBytes) (c : BitVec 2) : id.pageSizeCode = c ↔ id.b3.toNat % 4 = c.toNat := by
  simp [IdBytes.pageSizeCode, ← BitVec.toNat_inj]

theorem decodeGeometry_of_code_one {id : IdBytes} (hmaker : id.b0 = makerCode) (hcode : id.pageSizeCode = 1#2) :
    decodeGeometry id = some geometry2048 := by
  simp [decodeGeometry, hmaker, hcode]

theorem decodeGeometry_of_code_two {id : IdBytes} (hmaker : id.b0 = makerCode) (hcode : id.pageSizeCode = 2#2) :
    decodeGeometry id = some geometry4096 := by
  simp [decodeGeometry, hmaker, hcode]

/-- There is no default geometry (R144). -/
theorem decodeGeometry_eq_none {id : IdBytes}
    (h : id.b0 ≠ makerCode ∨ (id.pageSizeCode ≠ 1#2 ∧ id.pageSizeCode ≠ 2#2)) : decodeGeometry id = none := by
  obtain hmaker | ⟨hone, htwo⟩ := h
  · simp [decodeGeometry, hmaker]
  · simp [decodeGeometry, hone, htwo]

/-- Settles O9: the page-size code is a remainder modulo 4, of which two values are recognised. -/
theorem decodeGeometryIsExact : Obligations.DecodeGeometryIsExact := fun id => by
  have hcode := id.pageSizeCode_eq_iff
  refine ⟨fun hmaker hone => ?_, fun hmaker htwo => ?_, fun hother => ?_⟩
  · exact decodeGeometry_of_code_one hmaker ((hcode 1#2).mpr hone)
  · exact decodeGeometry_of_code_two hmaker ((hcode 2#2).mpr htwo)
  · refine decodeGeometry_eq_none (hother.imp_right fun hrem => ?_)
    rw [Ne, Ne, hcode, hcode]
    show ¬ id.b3.toNat % 4 = 1 ∧ ¬ id.b3.toNat % 4 = 2
    omega

/-- Settles O10: bit 6 by division. -/
theorem checkIoWidthIsBitSix : Obligations.CheckIoWidthIsBitSix := fun id => by
  have hbit : (id.b3.extractLsb' 6 1).toNat = id.b3.toNat / 64 % 2 := by
    rw [BitVec.extractLsb'_toNat, Nat.shiftRight_eq_div_pow]
  rw [checkIoWidth, decide_eq_true_iff, ← BitVec.toNat_inj, hbit]
  rfl

/-! ### Which operation a run stays in -/

theorem MicroRun.mono {P Q : State → Prop} (hPQ : ∀ s, P s → Q s) : ∀ {n : Nat} {s t : State}, MicroRun P n s t →
    MicroRun Q n s t
  | 0, _, _, h => h
  | _ + 1, s, _, ⟨hp, u, hu, h⟩ => ⟨hPQ s hp, u, hu, h.mono hPQ⟩

/-- The innermost operation in progress is `o`, which returns to `fs` (R32). -/
def State.In (o : Op) (fs : List Frame) (s : State) : Prop := ∃ f, f.op = o ∧ s.seq = f :: fs

/-- A run no longer than the plain lines ahead does not leave their operation. -/
theorem MicroRun.in_of_plain {P : State → Prop} : ∀ {n : Nat} {s t : State} {f : Frame} {fs : List Frame},
    MicroRun P n s t → s.seq = f :: fs → (∀ m ∈ f.op.body, m.plain.isSome = true) → f.line + n ≤ f.op.body.length →
    MicroRun (State.In f.op fs) n s t
  | 0, _, _, _, _, h, _, _, _ => h
  | n + 1, s, t, f, fs, ⟨_, u, hu, h⟩, hs, hplain, hlen => by
    refine ⟨⟨f, rfl, hs⟩, u, hu, ?_⟩
    cases n with
    | zero => exact h
    | succ n =>
      have hplainAt (i : Nat) (hi : i < f.op.body.length) : f.op.body[i].plain.isSome = true :=
        hplain _ (List.getElem_mem hi)
      have hline : f.micro? = some f.op.body[f.line] := List.getElem?_eq_getElem _
      obtain ⟨g, hg⟩ := Option.isSome_iff_exists.mp (hplainAt f.line (by omega))
      rw [microStep_at s f fs _ hs hline, runMicro_plain _ g f fs s hg] at hu
      cases hu
      have hnext : settle ({ f with line := f.line + 1 } :: fs) = { f with line := f.line + 1 } :: fs :=
        settle_stays _ fs f.op.body[f.line + 1] (List.getElem?_eq_getElem _) (plain_not_call _ (hplainAt _ (by omega)))
      have hlen' : f.line + 1 + (n + 1) ≤ f.op.body.length := by omega
      exact h.in_of_plain (f := { f with line := f.line + 1 }) hnext hplain hlen'

/-- Where a line that calls nothing leaves the sequencer: where it was, in its operation, or at the callers. -/
theorem runMicro_seq {m : Micro} {f : Frame} {fs : List Frame} {s t : State} (hcall : ∀ o, m ≠ .call o)
    (hbegin : m ≠ .beginRead) (h : runMicro m f fs s = .next t) :
    t.seq = s.seq ∨ t.seq = settle fs ∨ ∃ l c, t.seq = settle ({ f with line := l, loc := c } :: fs) := by
  cases m
  case call o => exact absurd rfl (hcall o)
  case beginRead => exact absurd rfl hbegin
  case poll =>
    have ht : (({ s with env := s.env.ry.2 } : State).emit (.ry s.env.ry.1)).afterPoll f fs s.env.ry.1 = t :=
      Host.Outcome.next.inj h
    rw [← ht]
    obtain ⟨-, e⟩ | ⟨-, -, e⟩ | ⟨-, -, e⟩ :=
      State.afterPoll_cases (({ s with env := s.env.ry.2 } : State).emit (.ry s.env.ry.1)) f fs s.env.ry.1 <;> rw [e]
    · exact .inr (.inr ⟨_, _, rfl⟩)
    · exact .inr (.inl rfl)
    · exact .inl rfl
  case rejectNoPage =>
    simp only [runMicro] at h
    split at h <;> cases h
    · exact .inr (.inr ⟨_, _, rfl⟩)
    · exact .inr (.inl rfl)
  case whileIdx | sampleStore | checkReady | endReadId | endReadPage =>
    simp only [runMicro] at h
    split at h <;> cases h <;> exact .inr (.inr ⟨_, _, rfl⟩)
  case clearByte =>
    simp only [runMicro] at h
    split_ifs at h <;> cases h <;> exact .inr (.inr ⟨_, _, rfl⟩)
  all_goals cases h; exact .inr (.inr ⟨_, _, rfl⟩)

/-- The bus primitives call nothing (R173). -/
theorem Op.not_call_of_height_one {o : Op} (ho : o.height = 1) (o' : Op) : .call o' ∉ o.body := fun h => by
  have := Op.height_lt_of_calls (Op.calls_of_mem_body h)
  have := o'.height_pos
  omega

theorem Op.not_beginRead_of_height_one {o : Op} (ho : o.height = 1) : .beginRead ∉ o.body := fun h => by
  rw [Op.eq_cmdReadPage_of_beginRead h] at ho
  cases ho

/-- Past their last lines operations return. -/
theorem settle_return {f g : Frame} (hf : f.micro? = none) (hg : g.micro? = none) : settle [f, g] = [] := by
  simp [settle, settleWith, hf, hg]

/-- A bus primitive called by an operation's last line is in progress, or everything has returned. -/
theorem settle_lastCall {f g : Frame} (hf : f.op.height = 1) (hg : g.micro? = none) :
    settle [f, g] = [f, g] ∨ settle [f, g] = [] := by
  cases hm : f.micro? with
  | none => exact .inr (settle_return hm hg)
  | some m =>
    refine .inl (settle_stays f [g] m hm fun o e => ?_)
    exact Op.not_call_of_height_one hf o (e ▸ List.mem_of_getElem? hm)

theorem microStep_in_lastCall {s t : State} {o : Op} {g : Frame} (ho : o.height = 1) (hg : g.micro? = none)
    (hs : s.In o [g]) (h : microStep s = .next t) : t.In o [g] ∨ t.seq = [] := by
  obtain ⟨f, rfl, hseq⟩ := hs
  have hsettle (f' : Frame) (hop : f'.op = f.op) (ht : t.seq = settle [f', g]) : t.In f.op [g] ∨ t.seq = [] :=
    (settle_lastCall (hop ▸ ho) hg).imp (fun e => ⟨f', hop, ht.trans e⟩) ht.trans
  cases hm : f.micro? with
  | none =>
    simp only [microStep, hseq, hm] at h
    cases h
    exact hsettle f rfl rfl
  | some m =>
    rw [microStep_at s f [g] m hseq hm] at h
    have hmem : m ∈ f.op.body := List.mem_of_getElem? hm
    obtain hstay | hreturn | ⟨l, c, hgo⟩ := runMicro_seq
      (fun o e => Op.not_call_of_height_one ho o (e ▸ hmem))
      (fun e => Op.not_beginRead_of_height_one ho (e ▸ hmem)) h
    · exact .inl ⟨f, rfl, hstay.trans hseq⟩
    · exact .inr (hreturn.trans (by simp [settle, settleWith, hg]))
    · exact hsettle { f with line := l, loc := c } rfl hgo

/-- A run through states that all have an operation in progress stays in the bus primitive that a last line called. -/
theorem MicroRun.in_of_lastCall {o : Op} {g : Frame} (ho : o.height = 1) (hg : g.micro? = none) :
    ∀ {n : Nat} {s t : State}, MicroRun (fun u => u.seq ≠ []) n s t → s.In o [g] → MicroRun (State.In o [g]) n s t
  | 0, _, _, h, _ => h
  | 1, _, _, ⟨_, u, hu, h⟩, hs => ⟨hs, u, hu, h⟩
  | n + 2, _, _, ⟨_, u, hu, hbusy, h⟩, hs => by
    have hin : u.In o [g] := (microStep_in_lastCall ho hg hs hu).resolve_right hbusy
    exact ⟨hs, u, hu, MicroRun.in_of_lastCall ho hg (n := n + 1) ⟨hbusy, h⟩ hin⟩

theorem outermostOp_eq_none_iff (fs : List Frame) : outermostOp fs = none ↔ fs = [] := by
  simp [outermostOp]

theorem stable_busy : Stable (fun s => s.seq ≠ []) := fun _ _ hs hout _ _ _ ht =>
  hs ((outermostOp_eq_none_iff _).mp (hout.symm.trans ((outermostOp_eq_none_iff _).mpr ht)))

/-! ### The opcode on the bus -/

/-- The bus operation in progress is that of the opcode `c` (R98). -/
def State.OnBus (c : Byte) (s : State) : Prop := busOpcode s.seq = some c

/-- A bus primitive leaves the opcode to its callers. -/
theorem busOpcode_of_height_one {f : Frame} (hf : f.op.height = 1) (fs : List Frame) :
    busOpcode (f :: fs) = busOpcode fs := by
  obtain ⟨op, line, loc⟩ := f
  cases op with
  | reset | readId | readPage | cmdReadId | cmdReadPage | startup => cases hf
  | _ => rfl

theorem MicroRun.onBus {n : Nat} {s t : State} {o : Op} {fs : List Frame} {c : Byte}
    (h : MicroRun (State.In o fs) n s t) (ho : o.height = 1) (hfs : busOpcode fs = some c) :
    MicroRun (State.OnBus c) n s t :=
  h.mono fun u ⟨f, hop, hseq⟩ => by
    rw [State.OnBus, hseq, busOpcode_of_height_one (hop ▸ ho), hfs]

/-- Micro-steps with an opcode on the bus are turns of its instruction, the first of which begins the operation. -/
theorem MicroRun.runFor_exec {n : Nat} {s u t : State} {c : Byte} {i : Instr} (hrun : MicroRun (State.OnBus c) n u t)
    (hn : 0 < n) (hi : decode (.nandcmd c) = some i) (hbegin : exec i s = microStep u) :
    runFor (exec i) n s = .next t := by
  obtain ⟨n, rfl⟩ := Nat.exists_eq_succ_of_ne_zero hn.ne'
  obtain ⟨-, v, hv, hrest⟩ := hrun
  rw [runFor_succ _ n s v (hbegin.trans hv)]
  exact hrest.runFor_eq fun w hw => exec_bus w c i hw hi

/-! ### The bus primitives under an opcode -/

/-- A bus primitive of plain lines runs under the opcode of its callers (R120, R122, R124). -/
theorem MicroRun.onBus_of_plain {P : State → Prop} {n : Nat} {s t : State} {o : Op} {fs : List Frame} {c : Byte}
    (h : MicroRun P n s t) (ho : o.height = 1) (hplain : ∀ m ∈ o.body, m.plain.isSome = true) (hn : n ≤ o.body.length)
    (hs : s.seq = o.start :: fs) (hfs : busOpcode fs = some c) : MicroRun (State.OnBus c) n s t :=
  (h.in_of_plain hs hplain ((Nat.zero_add n).trans_le hn)).onBus ho hfs

/-- The command cycle under an opcode (R98, R120). -/
theorem run_assertCommand_onBus {s : State} {b c : Byte} {fs : List Frame} (hfs : busOpcode fs = some c)
    (hs : s.seq = (Op.assertCommand b).start :: fs) :
    MicroRun (State.OnBus c) 10 s
      { s with
        seq := settle ({ op := .assertCommand b, line := 10, loc := 0 } :: fs)
        pins := { s.pins with ioDir := .output, ioOut := b, cle := false, cen := false, wen := true }
        trace := s.trace ++ commandTrace b } :=
  (run_assertCommand stable_true hs trivial).onBus_of_plain (o := .assertCommand b) rfl (latchCycle_plain .cle .tCLH b)
    le_rfl hs hfs

/-- `ReadBytes` into BUF as the last line of the operation that has its opcode on the bus: everything returns (R126). -/
theorem run_readBytes_onBus {s : State} {g : Frame} {c : Byte} {k : Nat} {bs zs : List Byte} {ys : List Level}
    (hbus : busOpcode [g] = some c) (hlast : g.micro? = none)
    (hs : s.seq = [(Op.readBytes bs.length .buf).start, g]) (hcount : bs.length ≤ s.params.bufSize)
    (hpatient : patient s.params k = true) (hry : s.env.ryIn = List.replicate k false ++ true :: ys)
    (hsample : s.env.sampleIn = bs ++ zs) :
    MicroRun (State.OnBus c) (11 + k + 7 * bs.length) s
      { s with
        seq := [], ret := .ok, byteIdx := bs.length, ryPolls := k, buf := s.buf.writeBytes 0 bs
        pins := s.pins.afterRead
        trace := s.trace ++ readBytesTrace k bs
        env := { s.env with ryIn := ys, sampleIn := zs } } := by
  have hrun := run_readBytes stable_busy hs hcount hpatient hry hsample (by simp [hs])
  rw [settle_return (f := readFrame bs.length .buf 17) rfl hlast] at hrun
  exact (hrun.in_of_lastCall (o := .readBytes bs.length .buf) rfl hlast ⟨_, rfl, hs⟩).onBus rfl hbus

/-! ### The four command cycles -/

/-- No payload is larger than 4352 bytes (R103, R146). -/
theorem Geometry.payload_le {g : Geometry} (hg : g = geometry2048 ∨ g = geometry4096) : g.payload ≤ 4352 := by
  obtain rfl | rfl := hg <;> decide

/-- Settles O22: the command cycle under `Reset()`, and the two lines after it. -/
theorem nandResetRuns : Obligations.NandResetRuns := fun s hs => by
  have hcommand := run_assertCommand_onBus (s := { s with seq := settle [Op.reset.start] })
    (fs := [{ op := .reset, line := 1, loc := 0 }]) (c := 0xFF#8) rfl rfl
  have hstandby := hcommand.trans (.line (f := { op := .reset, line := 1, loc := 0 }) rfl rfl rfl rfl)
  have hwait := hstandby.trans (.line (f := { op := .reset, line := 2, loc := 0 }) rfl rfl rfl rfl)
  refine (hwait.congr rfl ?_).runFor_exec (by decide) rfl (congrArg microStep (State.busEntry_idle _ _ hs))
  have hdone : settle [{ op := .reset, line := 3, loc := 0 }] = [] := rfl
  simp [State.advance, State.goTo, State.drive, State.emit, Pins.set, hs, hdone, resetTrace]

/-- Settles O23: the command cycle, the address cycle and the data-out cycles that `ReadId(BUF)` calls in turn. -/
theorem nandReadIdRuns : Obligations.NandReadIdRuns :=
  fun s k b0 b1 b2 b3 b4 ys zs hs hphase hwf hpatient hry hsample => by
  refine ⟨s.buf.writeBytes 0 [b0, b1, b2, b3, b4], ?_, Memory.wf_writeBytes _ s.buf 0 hwf,
    Memory.read_writeBytes_zero hwf _⟩
  have hbegin : exec .nandReadId s = microStep { s with seq := settle [(Op.readId .buf).start] } := by
    have hdest : s.idDest = .buf := if_neg hphase
    simp only [exec, execNandReadId, State.busEntry_idle _ _ hs, hdest]
  have hcommand := run_assertCommand_onBus (s := { s with seq := settle [(Op.readId .buf).start] })
    (fs := [{ op := .readId .buf, line := 1, loc := 0 }]) (c := 0x90#8) rfl rfl
  have haddress := hcommand.trans ((run_assertSingleAddressByte stable_true
    (fs := [{ op := .readId .buf, line := 2, loc := 0 }]) (b := 0x00#8) rfl trivial).onBus_of_plain
    (o := .assertSingleAddressByte 0x00#8) rfl (latchCycle_plain .ale .tALH _) le_rfl rfl rfl)
  have hbytes := haddress.trans (run_readBytes_onBus (g := { op := .readId .buf, line := 3, loc := 0 })
    (bs := [b0, b1, b2, b3, b4]) rfl rfl rfl (show 5 ≤ s.params.bufSize from le_trans (by decide) s.params.le_bufSize)
    hpatient hry hsample)
  refine (hbytes.congr ?_ ?_).runFor_exec (by omega) rfl hbegin
  · simp only [List.length_cons, List.length_nil]
    omega
  · simp [hs, idSetupTrace, Pins.afterRead]

theorem addressBytes_column_zero (page : Word) : addressBytes page 0#32 = pageAddress page := by
  simp [addressBytes_eq, pageAddress]

/-- Settles O24: lines 2 and 3 of `ReadPage`, with the address bytes by `addressBytes_column_zero`. -/
theorem nandReadSetupRuns : Obligations.NandReadSetupRuns := fun s g hs hgeom => by
  have hcommand := run_assertCommand_onBus
    (s := { s with seq := settle [{ op := .readPage s.pageCounter g.payload, line := 1, loc := 0 }] })
    (fs := [{ op := .readPage s.pageCounter g.payload, line := 2, loc := 0 }]) (c := 0x00#8) rfl rfl
  have haddress := hcommand.trans ((run_assertRowColumnAddress stable_true
    (fs := [{ op := .readPage s.pageCounter g.payload, line := 3, loc := 0 }]) rfl trivial).onBus_of_plain rfl
    (assertRowColumnAddress_plain _ _) le_rfl rfl rfl)
  rw [addressBytes_column_zero] at haddress
  exact haddress.runFor_exec (by decide) rfl (State.pageRead_idle _ _ hs hgeom)

/-- Settles O25: lines 4 to 6 of `ReadPage`; the payload of either geometry fits BUF. -/
theorem nandReadConfirmRuns : Obligations.NandReadConfirmRuns :=
  fun s g k bs zs ys hs hgeom hg hlen hwf hpatient hry hsample => by
  refine ⟨s.buf.writeBytes 0 bs, ?_, Memory.wf_writeBytes bs s.buf 0 hwf, Memory.read_writeBytes_zero hwf bs⟩
  have hpayload : g.payload = bs.length := hlen.symm
  have hcount : bs.length ≤ s.params.bufSize := hpayload ▸ (Geometry.payload_le hg).trans s.params.le_bufSize
  have hbegin := State.pageRead_idle 0x30#8 3 hs hgeom
  rw [hpayload] at hbegin
  have hcommand := run_assertCommand_onBus
    (s := { s with seq := settle [{ op := .readPage s.pageCounter bs.length, line := 3, loc := 0 }] })
    (fs := [{ op := .readPage s.pageCounter bs.length, line := 4, loc := 0 }]) (c := 0x30#8) rfl rfl
  have hwait := hcommand.trans
    (.line (f := { op := .readPage s.pageCounter bs.length, line := 4, loc := 0 }) rfl rfl rfl rfl)
  have hbytes := hwait.trans (run_readBytes_onBus
    (g := { op := .readPage s.pageCounter bs.length, line := 6, loc := 0 }) (bs := bs) rfl rfl rfl
    hcount hpatient hry hsample)
  refine (hbytes.congr ?_ ?_).runFor_exec (by omega) rfl hbegin
  · omega
  · simp [hs, Pins.afterRead]

end Sys2Proof.Machine
end

section
/-! PROOFS. READID and READPAGE from start to end (R142, R148, R165, R166): the bus primitives that they call in turn,
composed into runs of the whole operations, and each command as a run of its turns. -/

namespace Sys2Proof.Machine

/-! ### Runs that stay in the caller of the bus primitives -/

/-- A stable predicate is kept as long as the same operation stands on the same callers, whatever it has called. -/
theorem Stable.of_sameCaller {P : State → Prop} (hP : Stable P) {s t : State} (l l' : List Frame) {f g : Frame}
    {fs : List Frame} (hp : P s) (hs : s.seq = l ++ f :: fs) (ht : t.seq = l' ++ g :: fs) (hop : g.op = f.op)
    (hphase : t.phase = s.phase) (hwstate : t.wstate = s.wstate) (hinputs : t.env.inputs = s.env.inputs) : P t := by
  refine hP s t hp ?_ hphase hwstate hinputs
  rw [hs, ht]
  cases fs <;> simp [outermostOp, List.getLast?_cons, hop]

/-- The operation `o` called all the others in progress (R32). -/
def State.Within (o : Op) (s : State) : Prop := outermostOp s.seq = some o

theorem stable_within (o : Op) : Stable (State.Within o) := fun _ _ hs hout _ _ _ => hout.trans hs

/-- The Commands of many micro-steps, each with its operation (R165, R166). -/
def RunsOperation (i : Instr) (o : Op) : Prop :=
  (i = .readId ∧ o = .cmdReadId) ∨ (i = .readPage ∧ o = .cmdReadPage)

theorem RunsOperation.exec_eq {i : Instr} {o : Op} (h : RunsOperation i o) (s : State) :
    exec i s = microStep (s.commandEntry o) := by
  obtain ⟨rfl, rfl⟩ | ⟨rfl, rfl⟩ := h <;> rfl

theorem State.Within.commandEntry {s : State} {o : Op} (h : s.Within o) : s.commandEntry o = s := if_pos h

/-- Micro-steps within a command's operation are turns of the command, the first of which begins the operation. -/
theorem RunsOperation.runFor_exec {i : Instr} {o : Op} (h : RunsOperation i o) {n : Nat} {s t : State} (hs : s.seq = [])
    (hn : 0 < n) (hrun : MicroRun (State.Within o) n { s with seq := settle [o.start] } t) :
    runFor (exec i) n s = .next t := by
  obtain ⟨n, rfl⟩ := Nat.exists_eq_succ_of_ne_zero hn.ne'
  obtain ⟨-, u, hu, hrest⟩ := hrun
  have hfirst : exec i s = .next u := by rw [h.exec_eq, State.commandEntry_idle o hs, hu]
  rw [runFor_succ _ n s u hfirst]
  exact hrest.runFor_eq fun v hv => by rw [h.exec_eq, hv.commandEntry]

/-! ### `Reset`, `ReadId` and `ReadPage` up to their data -/

/-- `Reset()` as a run that a caller can compose (R140). -/
theorem run_reset {P : State → Prop} (hP : Stable P) {s : State} {fs : List Frame}
    (hs : s.seq = settle (Op.reset.start :: fs)) (hp : P s) :
    MicroRun P 12 s
      { s with
        seq := settle ({ op := .reset, line := 3, loc := 0 } :: fs)
        pins := { s.pins with ioDir := .output, ioOut := 0xFF#8, cle := false, cen := true, wen := true }
        trace := s.trace ++ resetTrace } := by
  have hcommand := run_assertCommand hP (fs := { op := .reset, line := 1, loc := 0 } :: fs) hs hp
  have hstandby := hcommand.trans (run_stretch hP (f := { op := .reset, line := 1, loc := 0 })
    [.drive .cen true, .wait .tRST] (List.cons_ne_nil _ _) (by simp [Micro.plain]) rfl ⟨[], rfl⟩
    (hP.of_sameCaller [_] [] hp hs rfl rfl rfl rfl rfl))
  refine hstandby.congr rfl ?_
  simp [Micro.onPins, Micro.events, Pins.set, resetTrace]

/-- `ReadId(d)` up to its data cycles: the command cycle and one address cycle (R142 lines 1 and 2). -/
theorem run_readId_setup {P : State → Prop} (hP : Stable P) {s : State} {d : Dest} {fs : List Frame}
    (hs : s.seq = settle ((Op.readId d).start :: fs)) (hp : P s) :
    MicroRun P 20 s
      { s with
        seq := (Op.readBytes 5 d).start :: { op := .readId d, line := 3, loc := 0 } :: fs
        pins := { s.pins with
          ioDir := .output, ioOut := 0x00#8, cle := false, ale := false, cen := false, wen := true }
        trace := s.trace ++ idSetupTrace } := by
  have hcommand := run_assertCommand hP (fs := { op := .readId d, line := 1, loc := 0 } :: fs) hs hp
  have haddress := hcommand.trans (run_assertSingleAddressByte hP
    (fs := { op := .readId d, line := 2, loc := 0 } :: fs) rfl (hP.of_sameCaller [_] [_] hp hs rfl rfl rfl rfl rfl))
  refine haddress.congr rfl ?_
  have hcall : settle ({ op := .assertSingleAddressByte 0x00#8, line := 10, loc := 0 } ::
      { op := .readId d, line := 2, loc := 0 } :: fs) =
      (Op.readBytes 5 d).start :: { op := .readId d, line := 3, loc := 0 } :: fs := rfl
  simp [hcall, idSetupTrace]

/-- `ReadPage(page, n)` up to its RY poll (R148 lines 1 to 5). -/
theorem run_readPage_setup {P : State → Prop} (hP : Stable P) {s : State} {page : Word} {n : Nat} {fs : List Frame}
    (hs : s.seq = settle ((Op.readPage page n).start :: fs)) (hp : P s) :
    MicroRun P 68 s
      { s with
        seq := (Op.readBytes n .buf).start :: { op := .readPage page n, line := 6, loc := 0 } :: fs
        pins := { s.pins with
          ioDir := .output, ioOut := 0x30#8, cle := false, ale := false, cen := false, wen := true }
        trace := s.trace ++ pageSetupTrace page } := by
  have hreset := run_reset hP (fs := { op := .readPage page n, line := 1, loc := 0 } :: fs) hs hp
  have hsetup := hreset.trans (run_assertCommand hP (fs := { op := .readPage page n, line := 2, loc := 0 } :: fs) rfl
    (hP.of_sameCaller [_, _] [_] hp hs rfl rfl rfl rfl rfl))
  have haddress := hsetup.trans (run_assertRowColumnAddress hP
    (fs := { op := .readPage page n, line := 3, loc := 0 } :: fs) rfl
    (hP.of_sameCaller [_, _] [_] hp hs rfl rfl rfl rfl rfl))
  have hconfirm := haddress.trans (run_assertCommand hP
    (fs := { op := .readPage page n, line := 4, loc := 0 } :: fs) rfl
    (hP.of_sameCaller [_, _] [_] hp hs rfl rfl rfl rfl rfl))
  have hsettled := hconfirm.trans (.line (f := { op := .readPage page n, line := 4, loc := 0 })
    (hP.of_sameCaller [_, _] [] hp hs rfl rfl rfl rfl rfl) rfl rfl rfl)
  refine hsettled.congr rfl ?_
  have hcall : settle ({ op := .readPage page n, line := 5, loc := 0 } :: fs) =
      (Op.readBytes n .buf).start :: { op := .readPage page n, line := 6, loc := 0 } :: fs := rfl
  simp [State.advance, State.goTo, State.emit, hcall, addressBytes_column_zero, pageSetupTrace]

/-! ### READID -/

/-- READID succeeds (R165). -/
theorem runMicro_endReadId_ok {s : State} (h : s.ret = .ok) :
    runMicro .endReadId { op := .cmdReadId, line := 1, loc := 0 } [] s = .next
      { s with seq := [], curRes := 5#32, wstate := .publishResult } := by
  simp only [runMicro]
  split
  · rfl
  · rename_i hret; cases h.symm.trans hret

/-- READID fails (R165, R213). -/
theorem runMicro_endReadId_notReady {s : State} (h : s.ret = .notReady) :
    runMicro .endReadId { op := .cmdReadId, line := 1, loc := 0 } [] s = .next
      { s with seq := [], curRes := 0#32, wstate := .publishResult } := by
  simp only [runMicro]
  split
  · rename_i hret; cases h.symm.trans hret
  · rfl

/-- Settles O27: `ReadId(BUF)` within READID, and the branch on its return value. -/
theorem readIdRunsToItsResult : Obligations.ReadIdRunsToItsResult :=
  fun s k b0 b1 b2 b3 b4 ys zs hs hwf hpatient hry hsample => by
  refine ⟨s.buf.writeBytes 0 [b0, b1, b2, b3, b4], ?_, Memory.wf_writeBytes _ s.buf 0 hwf,
    Memory.read_writeBytes_zero hwf _⟩
  have hsetup := run_readId_setup (stable_within .cmdReadId) (s := { s with seq := settle [Op.cmdReadId.start] })
    (d := .buf) (fs := [{ op := .cmdReadId, line := 1, loc := 0 }]) rfl rfl
  have hbytes := hsetup.trans (run_readBytes (stable_within .cmdReadId) (d := .buf) (bs := [b0, b1, b2, b3, b4]) rfl
    (show 5 ≤ s.params.bufSize from le_trans (by decide) s.params.le_bufSize) hpatient hry hsample rfl)
  have hend := hbytes.trans (.line rfl rfl rfl (runMicro_endReadId_ok rfl))
  refine RunsOperation.runFor_exec (.inl ⟨rfl, rfl⟩) hs (by omega) (hend.congr ?_ ?_)
  · simp only [List.length_cons, List.length_nil]
    omega
  · simp [hs, Pins.afterRead, Dest.bufAfter, Dest.idAfter]

/-- Settles O28: `ReadBytes` gives up, and READID fails (R213). -/
theorem readIdFailsWhenNotReady : Obligations.ReadIdFailsWhenNotReady := fun s n ys hs htimeout hry => by
  have hsetup := run_readId_setup (stable_within .cmdReadId) (s := { s with seq := settle [Op.cmdReadId.start] })
    (d := .buf) (fs := [{ op := .cmdReadId, line := 1, loc := 0 }]) rfl rfl
  have hgiveUp := hsetup.trans (run_readBytes_givesUp (stable_within .cmdReadId) rfl htimeout hry rfl)
  have hend := hgiveUp.trans (.line rfl rfl rfl (runMicro_endReadId_notReady rfl))
  refine RunsOperation.runFor_exec (.inl ⟨rfl, rfl⟩) hs (by omega) (hend.congr (by omega) ?_)
  simp [hs, Pins.afterRead]

/-! ### The clear of READPAGE -/

/-- READPAGE at a position, with the index of its clear or the size of its payload. -/
def pageFrame (line loc : Nat) : Frame := { op := .cmdReadPage, line := line, loc := loc }

/-- A byte of the clear that is not the last (R166 line 2). -/
theorem runMicro_clearByte_next {s : State} {i : Nat} (fs : List Frame) (h : i + 1 < s.params.bufSize) :
    runMicro .clearByte (pageFrame 1 i) fs s = .next
      { s with seq := pageFrame 1 (i + 1) :: fs, buf := s.buf.write i 0x00#8 } :=
  if_pos h

/-- The last byte of the clear (R166 line 2). -/
theorem runMicro_clearByte_last {s : State} {i : Nat} (fs : List Frame) (h : i + 1 = s.params.bufSize) :
    runMicro .clearByte (pageFrame 1 i) fs s = .next
      { s with seq := pageFrame 2 (i + 1) :: fs, buf := s.buf.write i 0x00#8 } := by
  have hnot : ¬ (pageFrame 1 i).loc + 1 < s.params.bufSize := by simp [pageFrame, h]
  have hin : (pageFrame 1 i).loc < s.params.bufSize := by simp [pageFrame, ← h]
  simp only [runMicro, if_neg hnot, if_pos hin]
  rfl

/-- The clear from index `i` to the end of BUF (R166 line 2). -/
theorem run_clear {P : State → Prop} (hP : Stable P) : ∀ (n : Nat) {s : State} {i : Nat} {fs : List Frame},
    s.seq = pageFrame 1 i :: fs → i + n + 1 = s.params.bufSize → P s →
    MicroRun P (n + 1) s
      { s with
        seq := pageFrame 2 s.params.bufSize :: fs, buf := s.buf.writeBytes i (List.replicate (n + 1) 0x00#8) }
  | 0, s, i, fs, hs, hlast, hp => by
    rw [← hlast]
    exact .line hp hs rfl (runMicro_clearByte_last fs hlast)
  | n + 1, s, i, fs, hs, hsize, hp => by
    have hfirst : MicroRun P 1 s { s with seq := pageFrame 1 (i + 1) :: fs, buf := s.buf.write i 0x00#8 } :=
      .line hp hs rfl (runMicro_clearByte_next fs (by omega))
    have hrest := run_clear hP n (s := { s with seq := pageFrame 1 (i + 1) :: fs, buf := s.buf.write i 0x00#8 }) rfl
      (show i + 1 + n + 1 = s.params.bufSize by omega) (hP.of_sameOp hp hs rfl rfl rfl rfl rfl)
    exact (hfirst.trans hrest).congr (Nat.add_comm 1 _) rfl

/-- BUF with 0x00 in every index is the canonical form without an entry (R38, R52). -/
theorem Memory.writeBytes_zeros {m : Memory} {size : Nat} (hwf : m.wf = true) (hwithin : m.within size = true) :
    m.writeBytes 0 (List.replicate size 0x00#8) = [] := by
  refine Memory.eq_of_read_eq _ [] (Memory.wf_writeBytes _ m 0 hwf) rfl fun a => ?_
  rw [Memory.read_writeBytes_zero hwf, Memory.read_nil]
  by_cases ha : a < size
  · simp [ha]
  · simp [ha, Memory.read_of_within m size a hwithin (Nat.not_lt.mp ha)]

/-! ### READPAGE -/

/-- READPAGE up to the call of `ReadPage`: the page is in range, and the clear leaves BUF without an entry (R166 lines 1
to 3). -/
theorem run_cmdReadPage_begin {P : State → Prop} (hP : Stable P) {s : State} {g : Geometry} {fs : List Frame}
    (hs : s.seq = pageFrame 0 0 :: fs) (hpage : s.pageCounter.toNat < pageLimit) (hgeom : s.geom = some g)
    (hok : s.bufOk = true) (hp : P s) :
    MicroRun P (2 + s.params.bufSize) s
      { s with
        seq := settle ((Op.readPage s.pageCounter g.payload).start :: pageFrame 3 g.payload :: fs), buf := [] } := by
  obtain ⟨hwf, hwithin⟩ := s.bufOk_iff.mp hok
  obtain ⟨n, hsize⟩ : ∃ n, s.params.bufSize = n + 1 :=
    Nat.exists_eq_add_one.mpr (Nat.lt_of_lt_of_le (by decide) s.params.le_bufSize)
  have haccept : MicroRun P 1 s { s with seq := pageFrame 1 0 :: fs } := .line hp hs rfl (if_pos hpage)
  have hclear := haccept.trans (run_clear hP n (i := 0) rfl (by simp [hsize])
    (hP.of_sameOp hp hs rfl rfl rfl rfl rfl))
  have hbegin (u : State) (hu : u.geom = some g) : runMicro .beginRead (pageFrame 2 s.params.bufSize) fs u = .next
      { u with seq := settle ((Op.readPage u.pageCounter g.payload).start :: pageFrame 3 g.payload :: fs) } := by
    simp only [runMicro, hu]
    rfl
  refine (hclear.trans (.line (hP.of_sameOp hp hs rfl rfl rfl rfl rfl) rfl rfl (hbegin _ hgeom))).congr (by omega) ?_
  simp [← hsize, Memory.writeBytes_zeros hwf hwithin]

/-- READPAGE up to its RY poll (R166 lines 1 to 4, R148 lines 1 to 5). -/
theorem run_cmdReadPage_setup {P : State → Prop} (hP : Stable P) {s : State} {g : Geometry} {fs : List Frame}
    (hs : s.seq = pageFrame 0 0 :: fs) (hpage : s.pageCounter.toNat < pageLimit) (hgeom : s.geom = some g)
    (hok : s.bufOk = true) (hp : P s) :
    MicroRun P (70 + s.params.bufSize) s
      { s with
        seq := (Op.readBytes g.payload .buf).start ::
          { op := .readPage s.pageCounter g.payload, line := 6, loc := 0 } :: pageFrame 3 g.payload :: fs
        buf := []
        pins := { s.pins with
          ioDir := .output, ioOut := 0x30#8, cle := false, ale := false, cen := false, wen := true }
        trace := s.trace ++ pageSetupTrace s.pageCounter } := by
  have hbegin := run_cmdReadPage_begin hP hs hpage hgeom hok hp
  exact (hbegin.trans (run_readPage_setup hP rfl (hP.of_sameCaller [] [_, _, _] hp hs rfl rfl rfl rfl rfl))).congr
    (by omega) rfl

/-- READPAGE succeeds: the payload's size, and the next page (R166 line 5). -/
theorem runMicro_endReadPage_ok {s : State} (n : Nat) (h : s.ret = .ok) :
    runMicro .endReadPage (pageFrame 3 n) [] s = .next
      { s with
        seq := [], pageCounter := s.pageCounter + 1#32, curRes := BitVec.ofNat 32 n, wstate := .publishResult } := by
  simp only [runMicro]
  split
  · rfl
  · rename_i hret; cases h.symm.trans hret

/-- READPAGE fails on the same page (R166, R213). -/
theorem runMicro_endReadPage_notReady {s : State} (n : Nat) (h : s.ret = .notReady) :
    runMicro .endReadPage (pageFrame 3 n) [] s = .next
      { s with seq := [], curRes := 0#32, wstate := .publishResult } := by
  simp only [runMicro]
  split
  · rename_i hret; cases h.symm.trans hret
  · rfl

/-- READPAGE to its result, with BUF as the payload's bytes leave an empty one (R166). -/
theorem runFor_readPage {s : State} {g : Geometry} {k : Nat} {bs zs : List Byte} {ys : List Level} (hs : s.seq = [])
    (hpage : s.pageCounter.toNat < pageLimit) (hgeom : s.geom = some g) (hlen : bs.length = g.payload)
    (hcount : g.payload ≤ s.params.bufSize) (hok : s.bufOk = true) (hpatient : patient s.params k = true)
    (hry : s.env.ryIn = List.replicate k false ++ true :: ys) (hsample : s.env.sampleIn = bs ++ zs) :
    runFor (exec .readPage) (82 + s.params.bufSize + k + 7 * bs.length) s = .next
      { s with
        pageCounter := s.pageCounter + 1#32, curRes := BitVec.ofNat 32 g.payload
        wstate := .publishResult, ret := .ok, byteIdx := bs.length, ryPolls := k, buf := Memory.writeBytes [] 0 bs
        pins := { s.pins.afterRead with ioOut := 0x30#8 }
        trace := s.trace ++ pageSetupTrace s.pageCounter ++ readBytesTrace k bs
        env := { s.env with ryIn := ys, sampleIn := zs } } := by
  have hsetup := run_cmdReadPage_setup (stable_within .cmdReadPage) (s := { s with seq := [pageFrame 0 0] }) rfl
    hpage hgeom hok rfl
  rw [← hlen] at hsetup hcount ⊢
  have hbytes := hsetup.trans (run_readBytes (stable_within .cmdReadPage) rfl hcount hpatient hry hsample rfl)
  have hend := hbytes.trans (.line rfl rfl rfl (runMicro_endReadPage_ok bs.length rfl))
  refine RunsOperation.runFor_exec (.inr ⟨rfl, rfl⟩) hs (by omega) (hend.congr ?_ ?_)
  · show 70 + s.params.bufSize + (11 + k + 7 * bs.length) + 1 = 82 + s.params.bufSize + k + 7 * bs.length
    omega
  · simp [hs, Pins.afterRead, Dest.bufAfter, Dest.idAfter]

/-- Settles O29 by `runFor_readPage`; the payload of either geometry fits BUF. -/
theorem readPageRunsToItsResult : Obligations.ReadPageRunsToItsResult :=
  fun s g k bs zs ys hs hpage hgeom hg hlen hok hpatient hry hsample => by
  have hcount : g.payload ≤ s.params.bufSize := (Geometry.payload_le hg).trans s.params.le_bufSize
  exact ⟨Memory.writeBytes [] 0 bs, runFor_readPage hs hpage hgeom hlen hcount hok hpatient hry hsample,
    Memory.wf_writeBytes bs [] 0 rfl, Memory.read_writeBytes_zero rfl bs⟩

/-- Settles O30: the clear comes before the bus, `ReadBytes` gives up, and READPAGE fails (R213). -/
theorem readPageFailsWhenNotReady : Obligations.ReadPageFailsWhenNotReady :=
  fun s g n ys hs hpage hgeom hok htimeout hry => by
  refine ⟨[], ?_, Memory.read_nil⟩
  have hsetup := run_cmdReadPage_setup (stable_within .cmdReadPage) (s := { s with seq := [pageFrame 0 0] }) rfl
    hpage hgeom hok rfl
  have hgiveUp := hsetup.trans (run_readBytes_givesUp (stable_within .cmdReadPage) rfl htimeout hry rfl)
  have hend := hgiveUp.trans (.line rfl rfl rfl (runMicro_endReadPage_notReady g.payload rfl))
  refine RunsOperation.runFor_exec (.inr ⟨rfl, rfl⟩) hs (by omega) (hend.congr ?_ ?_)
  · show 70 + s.params.bufSize + (7 + n) + 1 = 78 + s.params.bufSize + n
    omega
  · simp [hs, Pins.afterRead]

end Sys2Proof.Machine
end

section
/-! PROOFS. What a line of an operation does to WPn, PageCounter, `wstate` and BUF; from it, what the micro-steps of READID
and READPAGE leave unchanged (R174), and the number of requests in flight at a turn of W (R75, R160). -/

namespace Sys2Proof.Machine

/-! ### One line -/

/-- The lines that end a command with a result (R165, R166). -/
def Micro.finishes : Micro → Bool
  | .endReadId | .rejectNoPage | .endReadPage => true
  | _ => false

/-- What the line `m` at the position of `f` does to WPn, PageCounter, `wstate` and BUF: nothing, but for the lines
named here. -/
structure LineEffect (m : Micro) (f : Frame) (s t : State) : Prop where
  wpn : t.pins.wpn = s.pins.wpn ∨ ∃ v, m = .drive .wpn v
  pageCounter : t.pageCounter = s.pageCounter ∨ (m = .endReadPage ∧ t.pageCounter = s.pageCounter + 1#32)
  wstate : t.wstate = s.wstate ∨ (m.finishes = true ∧ t.wstate = .publishResult) ∨
    (m = .endStartup ∧ t.wstate = .waitForCommand)
  buf : t.buf = s.buf ∨ (m = .sampleStore .buf ∧ ∃ b, t.buf = s.buf.write s.byteIdx b) ∨
    (m = .clearByte ∧ ∃ b, t.buf = s.buf.write f.loc b)

theorem LineEffect.of_eq {m : Micro} {f : Frame} {s t : State} (hwpn : t.pins.wpn = s.pins.wpn)
    (hpage : t.pageCounter = s.pageCounter) (hwstate : t.wstate = s.wstate) (hbuf : t.buf = s.buf) :
    LineEffect m f s t :=
  ⟨.inl hwpn, .inl hpage, .inl hwstate, .inl hbuf⟩

/-- A line that ends a command. -/
theorem LineEffect.of_finishes {m : Micro} {f : Frame} {s t : State} (hm : m.finishes = true)
    (hwpn : t.pins.wpn = s.pins.wpn)
    (hpage : t.pageCounter = s.pageCounter ∨ (m = .endReadPage ∧ t.pageCounter = s.pageCounter + 1#32))
    (hwstate : t.wstate = .publishResult) (hbuf : t.buf = s.buf) : LineEffect m f s t :=
  ⟨.inl hwpn, hpage, .inr (.inl ⟨hm, hwstate⟩), .inl hbuf⟩

theorem Pins.wpn_set {q : Pin} (p : Pins) (v : Level) (h : q ≠ .wpn) : (p.set q v).wpn = p.wpn := by
  cases q
  case wpn => exact absurd rfl h
  all_goals rfl

theorem runMicro_lineEffect {m : Micro} {f : Frame} {fs : List Frame} {s t : State}
    (h : runMicro m f fs s = .next t) : LineEffect m f s t := by
  cases m
  case drive q v =>
    cases h
    by_cases hq : q = .wpn
    · exact ⟨.inr ⟨v, by rw [hq]⟩, .inl rfl, .inl rfl, .inl rfl⟩
    · exact .of_eq (s.pins.wpn_set v hq) rfl rfl rfl
  case poll =>
    obtain ⟨q, n, r, e⟩ := runMicro_poll f fs s
    rw [e] at h
    cases h
    exact .of_eq rfl rfl rfl rfl
  case sampleStore d =>
    simp only [runMicro] at h
    split at h <;> cases h
    rename_i u hstore
    obtain ⟨rfl, -, rfl⟩ | ⟨rfl, -, rfl⟩ := State.storeByte_cases _ _ _ _ hstore
    · exact ⟨.inl rfl, .inl rfl, .inl rfl, .inr (.inl ⟨rfl, _, rfl⟩)⟩
    · exact .of_eq rfl rfl rfl rfl
  case clearByte =>
    simp only [runMicro] at h
    split_ifs at h <;> cases h <;> exact ⟨.inl rfl, .inl rfl, .inl rfl, .inr (.inr ⟨rfl, _, rfl⟩)⟩
  case endStartup =>
    cases h
    obtain ⟨-, e⟩ | ⟨-, e⟩ := s.endStartup_cases <;> rw [e]
    · exact .of_eq rfl rfl rfl rfl
    · exact ⟨.inl rfl, .inl rfl, .inr (.inr ⟨rfl, rfl⟩), .inl rfl⟩
  case rejectNoPage =>
    simp only [runMicro] at h
    split at h <;> cases h
    · exact .of_eq rfl rfl rfl rfl
    · exact .of_finishes rfl rfl (.inl rfl) rfl rfl
  case endReadId =>
    simp only [runMicro] at h
    split at h <;> cases h <;> exact .of_finishes rfl rfl (.inl rfl) rfl rfl
  case endReadPage =>
    simp only [runMicro] at h
    split at h <;> cases h
    · exact .of_finishes rfl rfl (.inr ⟨rfl, rfl⟩) rfl rfl
    · exact .of_finishes rfl rfl (.inl rfl) rfl rfl
  case whileIdx | checkReady | beginRead =>
    simp only [runMicro] at h
    split at h <;> cases h <;> exact .of_eq rfl rfl rfl rfl
  all_goals cases h; exact .of_eq rfl rfl rfl rfl

/-! ### Which operation has which line -/

/-- No operation drives WPn (R21). -/
theorem Op.drive_wpn_not_mem_body (o : Op) (v : Level) : .drive .wpn v ∉ o.body := by
  cases o <;> simp [Op.body, latchCycle, addressCycle, addressBytes]

/-- READPAGE alone advances PageCounter (R166 line 5). -/
theorem Op.eq_cmdReadPage_of_endReadPage {o : Op} (h : .endReadPage ∈ o.body) : o = .cmdReadPage := by
  cases o <;> simp [Op.body, latchCycle, addressCycle, addressBytes] at h
  rfl

/-- The operations of the two Commands of many micro-steps. -/
def Op.isCommand : Op → Bool
  | .cmdReadId | .cmdReadPage => true
  | _ => false

theorem Op.body_not_finishes {o : Op} (ho : o.isCommand = false) : ∀ m ∈ o.body, m.finishes = false := by
  have hall : o.body.all (fun m => !m.finishes) = true := by
    cases o with
    | cmdReadId | cmdReadPage => cases ho
    | _ => rfl
  simpa using hall

/-- Nothing calls a Command (R173). -/
theorem Op.not_isCommand_of_calls {o o' : Op} (h : o.Calls o') : o'.isCommand = false := by
  cases h <;> rfl

/-! ### One micro-step -/

/-- A micro-step moves the sequencer alone, or is a line of the innermost operation. -/
theorem microStep_cases {s t : State} (h : microStep s = .next t) :
    (∃ q, t = { s with seq := q }) ∨
      ∃ f fs m, s.seq = f :: fs ∧ f.micro? = some m ∧ runMicro m f fs s = .next t := by
  unfold microStep at h
  split at h
  · cases h; exact .inl ⟨s.seq, rfl⟩
  · rename_i f fs hseq
    split at h
    · cases h; exact .inl ⟨_, rfl⟩
    · rename_i m hline
      exact .inr ⟨f, fs, m, hseq, hline, h⟩

/-- WPn stays at its level at every micro-step (R21). -/
theorem microStep_wpn {s t : State} (h : microStep s = .next t) : t.pins.wpn = s.pins.wpn := by
  obtain ⟨q, rfl⟩ | ⟨f, fs, m, -, hline, hrun⟩ := microStep_cases h
  · rfl
  · obtain hsame | ⟨v, rfl⟩ := (runMicro_lineEffect hrun).wpn
    · exact hsame
    · exact absurd (List.mem_of_getElem? hline) (f.op.drive_wpn_not_mem_body v)

/-- A micro-step writes no byte of BUF but the one that `State.storeIndex` names. -/
theorem microStep_buf {s t : State} (h : microStep s = .next t) :
    t.buf = s.buf ∨ ∃ a b, s.storeIndex = some a ∧ t.buf = s.buf.write a b := by
  obtain ⟨q, rfl⟩ | ⟨f, fs, m, hseq, hline, hrun⟩ := microStep_cases h
  · exact .inl rfl
  · obtain hsame | ⟨rfl, b, hwrite⟩ | ⟨rfl, b, hwrite⟩ := (runMicro_lineEffect hrun).buf
    · exact .inl hsame
    · exact .inr ⟨s.byteIdx, b, by simp [State.storeIndex, hseq, hline], hwrite⟩
    · exact .inr ⟨f.loc, b, by simp [State.storeIndex, hseq, hline], hwrite⟩

/-- Every other byte reads as before (R174). -/
theorem microStep_buf_read {s t : State} (h : microStep s = .next t) (a : Nat) (ha : s.storeIndex ≠ some a) :
    t.buf.read a = s.buf.read a := by
  obtain hsame | ⟨i, b, hidx, hwrite⟩ := microStep_buf h
  · rw [hsame]
  · have hne : a ≠ i := fun e => ha (e ▸ hidx)
    rw [hwrite, Memory.read_write_other _ _ _ _ hne]

/-- PageCounter changes by READPAGE alone, and by one (R166 line 5). -/
theorem microStep_pageCounter {s t : State} {o : Op} (hlinked : linked s.seq = true) (hout : outermostOp s.seq = some o)
    (h : microStep s = .next t) :
    t.pageCounter = s.pageCounter ∨ (o = .cmdReadPage ∧ t.pageCounter = s.pageCounter + 1#32) := by
  obtain ⟨q, rfl⟩ | ⟨f, fs, m, hseq, hline, hrun⟩ := microStep_cases h
  · exact .inl rfl
  · refine (runMicro_lineEffect hrun).pageCounter.imp_right ?_
    rintro ⟨rfl, hnext⟩
    refine ⟨?_, hnext⟩
    by_contra ho
    rw [hseq] at hlinked hout
    have hcalls (o o' : Op) (hcall : o.Calls o') (_ : o ≠ .cmdReadPage) : o' ≠ .cmdReadPage := fun e => by
      cases e ▸ Op.not_isCommand_of_calls hcall
    exact head_of_outermost hcalls hlinked hout ho (Op.eq_cmdReadPage_of_endReadPage (List.mem_of_getElem? hline))

/-- The startup sequence publishes nothing: its micro-steps leave W waiting for its first command (R242). -/
theorem microStep_wstate_startup {s t : State} (hlinked : linked s.seq = true)
    (hout : outermostOp s.seq = some .startup) (hw : s.wstate = .waitForCommand) (h : microStep s = .next t) :
    t.wstate = .waitForCommand := by
  obtain ⟨q, rfl⟩ | ⟨f, fs, m, hseq, hline, hrun⟩ := microStep_cases h
  · exact hw
  · obtain hsame | ⟨hfinishes, -⟩ | ⟨-, hend⟩ := (runMicro_lineEffect hrun).wstate
    · exact hsame.trans hw
    · rw [hseq] at hlinked hout
      have hop : f.op.isCommand = false :=
        head_of_outermost (P := fun o => o.isCommand = false) (fun _ _ hcall _ => Op.not_isCommand_of_calls hcall)
          hlinked hout rfl
      rw [Op.body_not_finishes hop m (List.mem_of_getElem? hline)] at hfinishes
      cases hfinishes
    · exact hend

/-- A command's micro-steps go on, or end in PublishResult (R160). -/
theorem microStep_wstate_command {s t : State} {o : Op} (hlinked : linked s.seq = true)
    (hout : outermostOp s.seq = some o) (ho : o.identifies = false) (hw : s.wstate ≠ .waitForCommand)
    (h : microStep s = .next t) : t.wstate ≠ .waitForCommand := by
  obtain ⟨q, rfl⟩ | ⟨f, fs, m, hseq, hline, hrun⟩ := microStep_cases h
  · exact hw
  · obtain hsame | ⟨-, hpublish⟩ | ⟨rfl, -⟩ := (runMicro_lineEffect hrun).wstate
    · exact hsame ▸ hw
    · simp [hpublish]
    · rw [hseq] at hlinked hout
      have hop : f.op.identifies = false := head_of_outermost Op.not_identifies_of_calls hlinked hout ho
      cases Op.body_not_identifies hop .endStartup (List.mem_of_getElem? hline)

/-! ### The frame of READID and READPAGE -/

theorem RunsOperation.op_unique {i : Instr} {o o' : Op} (h : RunsOperation i o) (h' : RunsOperation i o') : o' = o := by
  obtain ⟨rfl, rfl⟩ | ⟨rfl, rfl⟩ := h <;> obtain ⟨e, rfl⟩ | ⟨e, rfl⟩ := h' <;> cases e <;> rfl

/-- Where a command takes its next micro-step, its operation is outermost in a well-linked stack (R32, R162). -/
theorem RunsOperation.commandEntry_ok {i : Instr} {o : Op} (h : RunsOperation i o) {s : State}
    (hok : s.sequencerOk = true) (hp : s.phase = .run) (hw : s.wstate = .execute) (hcmd : decodeCommand s.curCmd = i) :
    linked (s.commandEntry o).seq = true ∧ (s.commandEntry o).Within o := by
  obtain hidle | hinside := s.sequencerOk_execute hok hp hw
  · rw [State.commandEntry_idle o hidle]
    obtain ⟨-, rfl⟩ | ⟨-, rfl⟩ := h <;> exact ⟨rfl, rfl⟩
  · have hwithin : s.Within o := by
      obtain ⟨hout, hi⟩ | ⟨hout, hi⟩ := hinside
      · exact h.op_unique (.inl ⟨hcmd.symm.trans hi, rfl⟩) ▸ hout
      · exact h.op_unique (.inr ⟨hcmd.symm.trans hi, rfl⟩) ▸ hout
    rw [hwithin.commandEntry]
    exact ⟨s.linked_of_sequencerOk hok, hwithin⟩

theorem RunsOperation.not_identifies {i : Instr} {o : Op} (h : RunsOperation i o) : o.identifies = false := by
  obtain ⟨-, rfl⟩ | ⟨-, rfl⟩ := h <;> rfl

theorem RunsOperation.eq_readPage {i : Instr} (h : RunsOperation i .cmdReadPage) : i = .readPage := by
  obtain ⟨-, e⟩ | ⟨hi, -⟩ := h
  · cases e
  · exact hi

/-- Settles O32: a turn of READID or READPAGE is a micro-step within its operation. -/
theorem commandMicroStepFrame : Obligations.CommandMicroStepFrame :=
  fun s t i o (hio : RunsOperation i o) hok hp hw hcmd h => by
  rw [hio.exec_eq] at h
  obtain ⟨hlinked, hwithin⟩ := hio.commandEntry_ok hok hp hw hcmd
  obtain ⟨q, hentry⟩ := s.commandEntry_eq o
  rw [hentry] at h hlinked hwithin ⊢
  obtain ⟨hparams, hpinMap, hdrive, hcurCmd, hcmdq, hresq, hcontrol, hinputs⟩ := microStep_keeps _ t h
  obtain ⟨hphase, hflags, hgeom, hbootId, hvalid⟩ := microStep_sameIdentity hlinked hwithin hio.not_identifies h
  have hwpn := microStep_wpn h
  have hread := microStep_buf_read h
  have hcounter := (microStep_pageCounter hlinked hwithin h).imp_right (And.imp_left fun e => (e ▸ hio).eq_readPage)
  exact ⟨hparams, hpinMap, hdrive, hwpn, hbootId, hvalid, hgeom, hflags, hphase, hcurCmd, hcmdq, hresq, hcontrol,
    hinputs, hcounter, hread⟩

/-! ### Requests in flight -/

/-- The number of requests in flight depends on the queues and on whether W waits (R75). -/
theorem State.inFlight_eq {s t : State} (hqueues : t.queues = s.queues)
    (hw : t.wstate = .waitForCommand ↔ s.wstate = .waitForCommand) : t.inFlight = s.inFlight := by
  obtain ⟨hcmdq, hresq⟩ := Prod.mk.inj hqueues
  simp only [State.inFlight, hcmdq, hresq, hw]

/-- In INIT the startup sequence is in progress, and W has taken no command yet (R30, R242). -/
theorem State.sequencerOk_init {s : State} (hok : s.sequencerOk = true) (hp : s.phase = .init) :
    s.wstate = .waitForCommand ∧ outermostOp s.seq = some .startup := by
  cases hw : s.wstate <;> simp [State.sequencerOk, hp, hw] at hok
  obtain ⟨-, hout⟩ := hok
  exact ⟨rfl, hout⟩

/-- Execute ends in PublishResult and nowhere else (R160). -/
theorem exec_workerInstr_wstate {s t : State} (hok : s.sequencerOk = true) (hp : s.phase = .run)
    (hw : s.wstate = .execute) (h : exec s.workerInstr s = .next t) : t.wstate ≠ .waitForCommand := by
  have hbusy : s.wstate ≠ .waitForCommand := by simp [hw]
  obtain hidle | hinside := s.sequencerOk_execute hok hp hw
  · rw [s.workerInstr_command (by rw [hidle]; rfl)] at h
    obtain ⟨o, ho, hmicro⟩ | ⟨n, w, rfl⟩ := exec_decodeCommand_idle hidle h
    · have hcommand (hlinked : linked (settle [o.start]) = true) (hout : outermostOp (settle [o.start]) = some o)
          (hid : o.identifies = false) : t.wstate ≠ .waitForCommand :=
        microStep_wstate_command (s := { s with seq := settle [o.start] }) hlinked hout hid hbusy hmicro
      obtain rfl | rfl := ho <;> exact hcommand rfl rfl rfl
    · simp
  · rw [exec_workerInstr_inside hinside] at h
    have hlinked := s.linked_of_sequencerOk hok
    obtain ⟨hout, -⟩ | ⟨hout, -⟩ := hinside <;> exact microStep_wstate_command hlinked hout rfl hbusy h

/-- A word taken from CMDQ is the command being executed (R160). -/
theorem State.inFlight_takeCommand {s : State} (hw : s.wstate = .waitForCommand) :
    s.takeCommand.inFlight = s.inFlight := by
  obtain ⟨-, hhold⟩ | ⟨w, q, hcmdq, htake⟩ := s.takeCommand_cases
  · rw [hhold]
  · simp [htake, State.inFlight, hw, hcmdq]

/-- The command being published becomes a word of RESQ (R160). -/
theorem State.inFlight_publish {s : State} (hw : s.wstate = .publishResult) :
    s.publish.inFlight = s.inFlight := by
  obtain ⟨-, hhold⟩ | ⟨-, hpublish⟩ := s.publish_cases
  · rw [hhold]
  · simp only [hpublish, State.inFlight, hw, List.length_append, List.length_singleton, reduceCtorEq, if_true, if_false]
    omega

/-- Settles O35: in each phase and state of W, the queues and `wstate` change together. -/
theorem workerKeepsRequestsInFlight : Obligations.WorkerKeepsRequestsInFlight := fun s t hok h => by
  cases hp : s.phase with
  | init =>
    rw [workerTurn_init hp] at h
    obtain ⟨hw, hout⟩ := s.sequencerOk_init hok hp
    exact State.inFlight_eq (microStep_queues h)
      (iff_of_true (microStep_wstate_startup (s.linked_of_sequencerOk hok) hout hw h) hw)
  | halted =>
    rw [workerTurn_halted s hp] at h
    cases h
    rfl
  | run =>
    cases hw : s.wstate with
    | waitForCommand =>
      rw [workerTurn_wait s hp hw] at h
      cases h
      exact State.inFlight_takeCommand hw
    | execute =>
      rw [workerTurn_execute s hp hw] at h
      exact State.inFlight_eq (exec_workerInstr_queues hok hp hw h)
        (iff_of_false (exec_workerInstr_wstate hok hp hw h) (by simp [hw]))
    | publishResult =>
      rw [workerTurn_publish s hp hw] at h
      cases h
      exact State.inFlight_publish hw

end Sys2Proof.Machine
end

section
/-! PROOFS. The Commands of one step (R166 to R171), the two other lines of the worker loop (R160, R161, R163), and which
instruction a step runs (R162, R191, R242). -/

namespace Sys2Proof.Machine

/-! ### The Commands of one step -/

/-- A counter in range is accepted (R168). -/
theorem execSetpc_accepts {n : Word} (s : State) (h : n.toNat < pageLimit) :
    execSetpc n s = .next { s with pageCounter := n, curRes := 1#32, wstate := .publishResult } :=
  if_pos h

/-- A counter out of range is rejected (R168). -/
theorem execSetpc_rejects {n : Word} (s : State) (h : pageLimit ≤ n.toNat) :
    execSetpc n s = .next { s with curRes := 0#32, wstate := .publishResult } :=
  if_neg (Nat.not_lt.mpr h)

/-- Settles O12: the decoder by its tag, and the one step by definition. -/
theorem rstpcResult : Obligations.RstpcResult :=
  ⟨fun w htag => by rw [commandWordDecodesByTag, htag]; rfl, fun _ => rfl⟩

/-- Settles O13: the two branches of SETPC, whose limit is 2^17. -/
theorem setpcResult : Obligations.SetpcResult :=
  ⟨fun w htag => by rw [commandWordDecodesByTag, htag]; rfl,
    fun s _ => ⟨execSetpc_accepts s, execSetpc_rejects s⟩⟩

/-- Settles O14; tags 6 and 7 are those with both upper bits set. -/
theorem noOpResult : Obligations.NoOpResult := by
  refine ⟨fun w => ⟨fun htag => ?_, fun htag => ?_, fun hupper => ?_⟩, fun s i hi => ?_⟩
  · rw [commandWordDecodesByTag, htag]; rfl
  · rw [commandWordDecodesByTag, htag]; rfl
  · have htag : w.toNat / 2 ^ 24 % 8 = 6 ∨ w.toNat / 2 ^ 24 % 8 = 7 := by omega
    obtain h | h := htag <;> rw [commandWordDecodesByTag, h] <;> rfl
  · obtain rfl | rfl | rfl := hi <;> rfl

/-- READPAGE past the last page ends at its first line (R166 line 1, R213). -/
theorem runMicro_rejectNoPage {s : State} (h : pageLimit ≤ s.pageCounter.toNat) :
    runMicro .rejectNoPage (pageFrame 0 0) [] s = .next
      { s with seq := [], curRes := 0#32, wstate := .publishResult } :=
  if_neg (Nat.not_lt.mpr h)

/-- Settles O15: the first line of READPAGE is its last. -/
theorem readPageRejectsPastTheEnd : Obligations.ReadPageRejectsPastTheEnd := fun s hs hpage => by
  have hbegin : exec .readPage s = microStep { s with seq := [pageFrame 0 0] } :=
    congrArg microStep (State.commandEntry_idle .cmdReadPage hs)
  have hline := microStep_at { s with seq := [pageFrame 0 0] } (pageFrame 0 0) [] .rejectNoPage rfl rfl
  have hfail := runMicro_rejectNoPage (s := { s with seq := [pageFrame 0 0] }) hpage
  rw [hbegin, hline, hfail, ← hs]

/-! ### The worker loop -/

/-- Settles O33: WaitForCommand is `State.takeCommand`. -/
theorem waitForCommandDequeues : Obligations.WaitForCommandDequeues := fun s hp hw => by
  rw [workerTurn_wait s hp hw]
  obtain ⟨hempty, hhold⟩ | ⟨w, q, hcmdq, htake⟩ := s.takeCommand_cases
  · exact ⟨fun w q h => by simp [hempty] at h, fun _ => by rw [hhold]⟩
  · refine ⟨fun w' q' h => ?_, fun h => by simp [hcmdq] at h⟩
    obtain ⟨rfl, rfl⟩ := List.cons.inj (hcmdq.symm.trans h)
    rw [htake]

/-- Settles O34: PublishResult is `State.publish`. -/
theorem publishResultEnqueues : Obligations.PublishResultEnqueues := fun s hp hw => by
  rw [workerTurn_publish s hp hw]
  obtain ⟨hfull, hhold⟩ | ⟨hroom, hpublish⟩ := s.publish_cases
  · exact ⟨fun h => absurd h (Nat.not_lt.mpr hfull), fun _ => by rw [hhold]⟩
  · exact ⟨fun _ => ⟨_, _, _, by rw [hpublish]⟩, fun h => absurd hroom (Nat.not_lt.mpr h)⟩

/-! ### The instruction of a step -/

/-- Inside a bus operation a turn of W runs the instruction of its opcode, in INIT and in Execute alike (R162, R242). -/
theorem workerTurn_bus {s : State} {b : Byte} {i : Instr} (h : s.phase = .init ∨ (s.phase = .run ∧ s.wstate = .execute))
    (hb : busOpcode s.seq = some b) (hi : decode (.nandcmd b) = some i) : workerTurn s = exec i s := by
  obtain hp | ⟨hp, hw⟩ := h
  · rw [workerTurn_init hp, exec_bus s b i hb hi]
  · rw [workerTurn_execute s hp hw, s.workerInstr_bus b i hb hi]

/-- Settles O54, by the turn of each agent. -/
theorem stepRunsTheFetchedInstruction : Obligations.StepRunsTheFetchedInstruction := by
  refine ⟨fun s e he hp hw hb => ?_, fun s e b i he hplace hb hi => ?_, fun s e i rest he hheld hpos hfetch => ?_,
    fun s e i st he hheld hpos => ?_⟩
  · rw [step_of_next s .worker e he, ← State.workerInstr_command { s with env := e } hb]
    exact workerTurn_execute { s with env := e } hp hw
  · rw [step_of_next s .worker e he]
    exact workerTurn_bus (s := { s with env := e }) hplace hb hi
  · rw [step_of_next s .control e he]
    exact controlTurn_fetch { s with env := e } i rest hheld hpos hfetch
  · rw [step_of_next s .control e he]
    exact controlTurn_serve { s with env := e } i st hheld hpos

end Sys2Proof.Machine
end

section
/-! PROOFS. The Serial Command Interface: one stage of an exchange (R190), the host bytes `'0'` to `'5'` (R193 to R198),
the bytes that are discarded (R196, R199), and its own startup (R191, R244). -/

namespace Sys2Proof.Machine

/-! ### Runs and transactions -/

theorem runFor_step {f : State → Result} {n : Nat} {s t : State} {r : Result} (h : f s = .next t)
    (hrest : runFor f n t = r) : runFor f (n + 1) s = r :=
  (runFor_succ f n s t h).trans hrest

/-- A transaction that completes is recorded with its response (R40). -/
theorem State.transact_of_some {s u : State} {x : Txn} {r : Response} (h : portAccess x s = some (r, u)) :
    s.transact x = some (r, u.respond x r) := by
  simp [State.transact, h]

/-- A transaction that holds leaves no record (R40). -/
theorem State.transact_of_none {s : State} {x : Txn} (h : portAccess x s = none) : s.transact x = none := by
  simp [State.transact, h]

theorem State.transact_regRead {s : State} {off : Nat} {w : Word} (hoff : off ≠ 0x04) (h : s.register off = some w) :
    s.transact (.regRead off) = some (.word w, s.respond (.regRead off) (.word w)) :=
  State.transact_of_some (portAccess_regRead hoff h)

/-! ### The stage of an exchange -/

theorem State.stageOf_serve {s : State} {i : Instr} {st : Stage} (h : s.control.pos = .serve i st) :
    s.stageOf i = st := by
  simp [State.stageOf, h]

/-- Outside its exchange a host byte begins with its push (R190). -/
theorem State.stageOf_outside {s : State} {i : Instr} (h : ∀ st, s.control.pos ≠ .serve i st) :
    s.stageOf i = .push := by
  unfold State.stageOf
  split
  · rename_i j st hpos
    exact if_neg fun hji : j = i => h st (hji ▸ hpos)
  · rfl

theorem State.setPos_self {s : State} {p : CtlPos} (h : s.control.pos = p) : s.setPos p = s := by
  subst h
  rfl

/-- A byte that is served without a report. -/
theorem State.finishByte_nil (s : State) :
    s.finishByte [] =
      { s with
        control := { s.control with pos := .idle, shownPage := Config.freeWord s.env.freeIndex }
        env := { s.env with freeIndex := s.env.freeIndex + 1 } } := by
  rw [State.finishByte_eq, List.append_nil]

section Exchange

variable {s : State} {i : Instr} {w : Word} {accept : Int → Bool} {payload : Option (List Byte → Report)}

theorem State.exchange_push_room (hstage : s.stageOf i = .push) (hroom : s.cmdq.length < s.params.cmdqDepth) :
    s.exchange i w accept payload =
      { s with cmdq := s.cmdq ++ [w]
               control := { s.control with
                 pos := .serve i .pop, responses := s.control.responses ++ [(.regWrite 0x00 w, .written)] } } := by
  obtain ⟨hpush, -⟩ := cmdqPushEnqueuesOrHolds s w
  simp only [State.exchange, hstage, State.transact_of_some (hpush hroom)]
  rfl

theorem State.exchange_push_full (hstage : s.stageOf i = .push) (hfull : s.params.cmdqDepth ≤ s.cmdq.length) :
    s.exchange i w accept payload = s.setPos (.serve i .push) := by
  obtain ⟨-, hhold⟩ := cmdqPushEnqueuesOrHolds s w
  simp only [State.exchange, hstage, State.transact_of_none (hhold hfull)]

theorem State.exchange_pop_empty (hpos : s.control.pos = .serve i .pop) (hempty : s.resq = []) :
    s.exchange i w accept payload = s := by
  obtain ⟨-, hhold⟩ := resqPopDequeuesOrHolds s
  simp only [State.exchange, State.stageOf_serve hpos, State.transact_of_none (hhold hempty)]
  exact State.setPos_self hpos

/-- The state after a pop of RESQ that completes (R43). -/
def State.popped (s : State) (r : Word) (q : List Word) : State :=
  ({ s with resq := q } : State).respond (.regRead 0x04) (.word r)

/-- A result that is there is tested, and an exchange with no payload ends with the test (R190, R193 to R196). -/
theorem State.exchange_pop_cons {r : Word} {q : List Word} (hpos : s.control.pos = .serve i .pop)
    (hresq : s.resq = r :: q) :
    s.exchange i w accept payload =
      if accept r.toInt then
        payload.elim ((s.popped r q).finishByte []) fun _ => (s.popped r q).setPos (.serve i (.copy r.toNat 0 []))
      else (s.popped r q).finishByte [.error r.toInt] := by
  obtain ⟨hpop, -⟩ := resqPopDequeuesOrHolds s
  simp only [State.exchange, State.stageOf_serve hpos, State.transact_of_some (hpop r q hresq)]
  cases payload <;> rfl

end Exchange

/-! ### The host bytes with an exchange -/

/-- How a host byte that reads a payload renders it (R193, R194). -/
def hostRender : Instr → Option (List Byte → Report)
  | .hostReadId => some .idBytes
  | .hostReadPage => some .page
  | _ => none

theorem hostPayload_eq (i : Instr) (bs : List Byte) : hostPayload i bs = (hostRender i).map fun rep => rep bs := by
  cases i <;> rfl

/-- Only host bytes with an exchange read a payload. -/
theorem hostCommandWord_of_hostRender {i : Instr} {rep : List Byte → Report} (h : hostRender i = some rep) :
    ∃ w, hostCommandWord i = some w := by
  cases i <;> cases h <;> exact ⟨_, rfl⟩

/-- `'3'` sends its page number under the tag of SETPC (R101, R196). -/
theorem setpcWord_hostPageNumber (b0 b1 b2 : Byte) :
    setpcWord (hostPageNumber b0 b1 b2) =
      BitVec.ofNat 32 (0x03000000 + b0.toNat + 256 * b1.toNat + 65536 * (b2.toNat % 2)) := by
  have hsum : (setpcWord (hostPageNumber b0 b1 b2)).toNat =
      0x03000000 + b0.toNat + 256 * b1.toNat + 65536 * (b2.toNat % 2) := by
    obtain ⟨hpage, -, hword, -⟩ := hostPageNumberArithmetic b0 b1 b2
    rw [hword, hpage]
    omega
  rw [← hsum, BitVec.ofNat_toNat, BitVec.setWidth_eq]

/-- The meaning of `'0'` to `'3'` is one stage of the exchange of R190, with its word, its test and its payload. -/
theorem exec_exchange {i : Instr} {w : Word} (s : State) (h : hostCommandWord i = some w) :
    exec i s = .next (s.exchange i w (hostAccepts s i) (hostRender i)) := by
  cases i <;> cases h
  case hostSetCounter b0 b1 b2 =>
    rw [← setpcWord_hostPageNumber]
    rfl
  all_goals rfl

/-- Settles O48: the push of an exchange, from outside it or held. -/
theorem hostBytePushesItsCommand : Obligations.HostBytePushesItsCommand := fun s i w hword hpos => by
  have hstage : s.stageOf i = .push := hpos.elim State.stageOf_serve State.stageOf_outside
  rw [exec_exchange s hword]
  exact ⟨fun hroom => congrArg _ (State.exchange_push_room hstage hroom),
    fun hfull => congrArg _ (State.exchange_push_full hstage hfull)⟩

/-- Settles O49: the pop of an exchange, by the test of the size and the payload. -/
theorem hostBytePopsItsResult : Obligations.HostBytePopsItsResult := fun s i w hword hpos => by
  rw [exec_exchange s hword]
  refine ⟨fun hempty => congrArg _ (State.exchange_pop_empty hpos hempty), fun r q hresq haccept hpayload => ?_,
    fun r q hresq haccept hpayload => ?_, fun r q hresq hreject => ?_⟩ <;>
    rw [State.exchange_pop_cons hpos hresq]
  · rw [hostPayload_eq, Option.isSome_map] at hpayload
    obtain ⟨rep, hrender⟩ := Option.isSome_iff_exists.mp hpayload
    rw [if_pos haccept, hrender]
    rfl
  · rw [hostPayload_eq, Option.map_eq_none_iff] at hpayload
    rw [if_pos haccept, hpayload, Option.elim_none, State.finishByte_nil]
    exact ⟨_, _, rfl⟩
  · rw [if_neg (by simp [hreject])]
    exact ⟨_, _, rfl⟩

/-! ### The payload -/

/-- A byte of the payload is read, and the last one ends the exchange (R193, R194). -/
theorem exec_copy {s : State} {i : Instr} {rep : List Byte → Report} {size idx : Nat} {got : List Byte}
    (hrender : hostRender i = some rep) (hpos : s.control.pos = .serve i (.copy size idx got))
    (hidx : idx < s.params.bufSize) :
    exec i s = .next
      (if idx + 1 < size then
        (s.respond (.bufRead idx) (.byte (s.buf.read idx))).setPos
          (.serve i (.copy size (idx + 1) (got ++ [s.buf.read idx])))
      else (s.respond (.bufRead idx) (.byte (s.buf.read idx))).finishByte [rep (got ++ [s.buf.read idx])]) := by
  obtain ⟨w, hword⟩ := hostCommandWord_of_hostRender hrender
  rw [exec_exchange s hword, hrender]
  simp only [State.exchange, State.stageOf_serve hpos, State.transact_of_some (portAccess_bufRead_below s hidx)]

/-- The record of reading `n` bytes of BUF from index `a` on (R64). -/
def bufReads (m : Memory) (a n : Nat) : List (Txn × Response) :=
  (List.range' a n).map fun k => (.bufRead k, .byte (m.read k))

theorem bufReads_succ (m : Memory) (a n : Nat) :
    bufReads m a (n + 1) = (.bufRead a, .byte (m.read a)) :: bufReads m (a + 1) n := rfl

/-- From index `idx` on, with `n + 1` bytes to read, an exchange reads them and ends with its report (R193, R194). -/
theorem runFor_payload {i : Instr} {rep : List Byte → Report} (hrender : hostRender i = some rep) {size : Nat} :
    ∀ (n idx : Nat) (got : List Byte) (s : State), s.control.pos = .serve i (.copy size idx got) →
      idx + (n + 1) = size → size ≤ s.params.bufSize →
      runFor (exec i) (n + 1) s =
        .next (({ s with control := { s.control with
                   responses := s.control.responses ++ bufReads s.buf idx (n + 1) } } : State).finishByte
          [rep (got ++ s.buf.readBytes idx (n + 1))])
  | 0, idx, got, s, hpos, hsize, hfits => by
    have hlast := exec_copy hrender hpos (by omega)
    rw [if_neg (by omega)] at hlast
    exact runFor_step hlast rfl
  | n + 1, idx, got, s, hpos, hsize, hfits => by
    have hread := exec_copy hrender hpos (by omega)
    rw [if_pos (by omega)] at hread
    refine runFor_step hread (Eq.trans (runFor_payload hrender n _ _ _ rfl (by omega) hfits) ?_)
    simp [bufReads_succ, Memory.readBytes, State.finishByte_eq]

/-- Settles O50: `runFor_payload` from index 0. -/
theorem hostByteReportsThePayload : Obligations.HostByteReportsThePayload :=
  fun s i rep size hpayload hpos hsize hfits => by
    rw [hostPayload_eq, Option.map_eq_some_iff] at hpayload
    obtain ⟨render, hrender, rfl⟩ := hpayload
    obtain ⟨n, rfl⟩ := Nat.exists_eq_add_one.mpr hsize
    rw [runFor_payload hrender n 0 [] s hpos (by omega) hfits, List.range_eq_range']
    exact ⟨_, _, rfl⟩

/-! ### The host bytes without an exchange -/

/-- Settles O51: one read of a register, and C's copy of the sizes. -/
theorem hostQueriesMakeNoExchange : Obligations.HostQueriesMakeNoExchange := by
  refine ⟨fun s => ?_, fun s => rfl, by decide⟩
  have hread : s.transact (.regRead 0x18) = _ := State.transact_regRead (by decide) rfl
  simp only [exec, execHostGetDrive, hread]
  rfl

/-! ### The serial link -/

/-- The wait for an argument byte ends by discarding what is pending (R196). -/
theorem State.endArgWait_incomplete {s : State} (hpos : s.control.pos = .idle) (hheld : s.control.held = none)
    (h : fetchSerial s.control.serialIn = .incomplete) :
    s.endArgWait = ({ s with control := { s.control with serialIn := [] } } : State).report .argTimeout :=
  if_pos ⟨hpos, hheld, h⟩

/-- Settles O52, by what `fetchSerial` finds on the link. -/
theorem discardedBytesReachNoQueue : Obligations.DiscardedBytesReachNoQueue := by
  refine ⟨fun _ _ => rfl, fun s bs hpos hheld hlen hlink => ?_, fun s b rest hpos hheld hlink hb => ?_,
    fun s hpos hheld hlink => ?_⟩
  · have hfetch : fetchSerial s.control.serialIn = .incomplete := hlink ▸ fetchSerial_incomplete hlen
    exact ⟨by simp [controlTurn, hheld, hpos, hfetch], congrArg _ (State.endArgWait_incomplete hpos hheld hfetch)⟩
  · have hfetch : fetchSerial s.control.serialIn = .unknown rest := hlink ▸ fetchSerial_unknown rest hb
    simp [controlTurn, hheld, hpos, hfetch, State.report]
  · have hfetch : fetchSerial s.control.serialIn = .empty := hlink ▸ rfl
    simp [controlTurn, hheld, hpos, hfetch, State.report]

/-! ### The startup of C -/

/-- READY is bit 0 of STATUS (R44). -/
theorem State.status_ready (s : State) : s.status.getLsbD 0 = (s.phase == .run) := s.getLsbD_status 0

/-- HALTED is bit 1 of STATUS (R44). -/
theorem State.status_halted (s : State) : s.status.getLsbD 1 = (s.phase == .halted) := s.getLsbD_status 1

/-- A poll of STATUS is recorded, and READY and HALTED end the polling (R191, R244). -/
theorem State.bootPoll_eq (s : State) :
    s.bootPoll =
      match s.phase with
      | .init => s.respond (.regRead 0x08) (.word s.status)
      | .run => (s.respond (.regRead 0x08) (.word s.status)).setPos .bootPage
      | .halted => (s.respond (.regRead 0x08) (.word s.status)).setPos .stopped := by
  have hread : s.transact (.regRead 0x08) = _ := State.transact_regRead (w := s.status) (by decide) rfl
  simp only [State.bootPoll, hread, s.status_ready, s.status_halted]
  cases s.phase <;> rfl

/-- A read of a size is recorded and updates C's copy of the geometry (R191, R244). -/
theorem State.bootRead_eq {s : State} {off : Nat} {w : Word} (upd : Geometry → Word → Geometry) (next : CtlPos)
    (hoff : off ≠ 0x04) (h : s.register off = some w) :
    s.bootRead off upd next =
      { s with control := { s.control with
          pos := next, sizes := upd s.control.sizes w
          responses := s.control.responses ++ [(.regRead off, .word w)] } } := by
  simp only [State.bootRead, State.transact_regRead hoff h]
  rfl

theorem controlTurn_bootPoll {s : State} (hheld : s.control.held = none) (hpos : s.control.pos = .bootPoll) :
    controlTurn s = .next s.bootPoll := by
  simp [controlTurn, hheld, hpos]

theorem controlTurn_stopped {s : State} (hheld : s.control.held = none) (hpos : s.control.pos = .stopped) :
    controlTurn s = .next s := by
  simp [controlTurn, hheld, hpos]

/-- `ReadsSize pos off size upd next`: at `pos` C reads the register at `off`, which holds `size` of the geometry, into
its copy by `upd`, and goes on at `next` (R41, R191, R244). -/
inductive ReadsSize : CtlPos → Nat → (Geometry → Word) → (Geometry → Word → Geometry) → CtlPos → Prop
  | page : ReadsSize .bootPage 0x0C Geometry.pageSize (fun g w => { g with pageSize := w }) .bootSpare
  | spare : ReadsSize .bootSpare 0x10 Geometry.spareSize (fun g w => { g with spareSize := w }) .bootTotal
  | total : ReadsSize .bootTotal 0x14 Geometry.totalSize (fun g w => { g with totalSize := w }) .idle

theorem ReadsSize.controlTurn_eq {pos next : CtlPos} {off : Nat} {size : Geometry → Word}
    {upd : Geometry → Word → Geometry} {s : State} {g : Geometry} (h : ReadsSize pos off size upd next)
    (hheld : s.control.held = none) (hgeom : s.geom = some g) (hpos : s.control.pos = pos) :
    controlTurn s = .next
      { s with control := { s.control with
          pos := next, sizes := upd s.control.sizes (size g)
          responses := s.control.responses ++ [(.regRead off, .word (size g))] } } := by
  have hturn : controlTurn s = .next (s.bootRead off upd next) := by
    cases h <;> simp only [controlTurn, hheld, hpos]
  have hreg : s.register off = some (size g) := by
    cases h <;> simp [State.register, hgeom]
  rw [hturn, State.bootRead_eq upd next (by cases h <;> decide) hreg]

/-- From PAGE_SIZE on, three turns fill C's copy of the geometry (R191, R244). -/
theorem runFor_bootSizes {s : State} {g : Geometry} (hheld : s.control.held = none) (hgeom : s.geom = some g)
    (hpos : s.control.pos = .bootPage) :
    runFor controlTurn 3 s = .next
      { s with control := { s.control with
          pos := .idle, sizes := g
          responses := s.control.responses ++ [(.regRead 0x0C, .word g.pageSize),
            (.regRead 0x10, .word g.spareSize), (.regRead 0x14, .word g.totalSize)] } } := by
  refine runFor_step (ReadsSize.page.controlTurn_eq hheld hgeom hpos)
    (runFor_step (ReadsSize.spare.controlTurn_eq hheld hgeom rfl)
      (runFor_step (ReadsSize.total.controlTurn_eq hheld hgeom rfl) ?_))
  simp [runFor_zero]

/-- Settles O53: a poll in each phase, and after READY the three sizes. -/
theorem controlSideReadsTheGeometry : Obligations.ControlSideReadsTheGeometry := by
  refine ⟨fun s hheld hpos => ?_, fun s hheld hpos => controlTurn_stopped hheld hpos⟩
  have hturn := controlTurn_bootPoll hheld hpos
  rw [State.bootPoll_eq] at hturn
  refine ⟨fun hphase => ?_, fun hphase => ?_, fun g hphase hgeom => ?_⟩ <;> rw [hphase] at hturn
  · exact hturn
  · exact hturn
  · refine runFor_step hturn (Eq.trans (runFor_bootSizes hheld hgeom rfl) ?_)
    simp

end Sys2Proof.Machine
end

section
/-! PROOFS. HALTED (R218, R219): W takes no step in it, and C still has its end of each queue. -/

namespace Sys2Proof.Machine

/-- C has the tail of CMDQ and the head of RESQ, and no other end of a queue (R42, R43, R60). -/
theorem ControlQueueStep.ends {q q' : List Word × List Word} (h : ControlQueueStep q q') :
    (q'.1 = q.1 ∨ ∃ w, q'.1 = q.1 ++ [w]) ∧ (q'.2 = q.2 ∨ ∃ w, q.2 = w :: q'.2) := by
  cases h with
  | keep => exact ⟨.inl rfl, .inl rfl⟩
  | push cq rq w => exact ⟨.inr ⟨w, rfl⟩, .inl rfl⟩
  | pop cq rq w => exact ⟨.inl rfl, .inr ⟨w, rfl⟩⟩

/-- In HALTED every input but a hard reset is at most a step of C: a turn of W changes nothing (R218). -/
theorem takeInput_halted {s t : State} {i : Input} (hp : s.phase = .halted) (hok : s.controlOk = true)
    (hi : i ≠ .hardReset) (h : takeInput i s = .next t) :
    ControlOnly s t ∧ ControlQueueStep s.queues t.queues ∧ (i = .worker → t = s) := by
  by_cases hw : i = .worker
  · subst hw
    have hturn : takeInput .worker s = .next s := workerTurn_halted s hp
    rw [hturn] at h
    cases h
    exact ⟨.refl s, .keep _, fun _ => rfl⟩
  · exact ⟨.takeInput hok hw hi h, .takeInput hok hw hi h, fun hworker => absurd hworker hw⟩

/-- Settles O46: `takeInput_halted` at the next input; the fields of the NFC by the frame of C, the queues by the ends
that C has. -/
theorem haltedStaysHalted : Obligations.HaltedStaysHalted := fun s t hp hok hi h => by
  obtain ⟨hframe, hqueues, hworker⟩ :=
    takeInput_halted (s := { s with env := s.env.nextInput.2 }) hp hok hi h
  obtain ⟨hcmdq, hresq⟩ := hqueues.ends
  have hphase : t.phase = .halted := (congrArg State.phase hframe).trans hp
  refine ⟨?_, ?_, ?_, ?_, ?_, ?_, ?_, ?_, ?_, ?_, hphase, ?_, ?_, ?_, ?_, ?_, ?_, ?_, ?_, hcmdq, hresq, hworker⟩
  all_goals rw [hframe]

end Sys2Proof.Machine
end

section
/-! PROOFS. Two reads of the same page under the same answers of the chip (R256). -/

namespace Sys2Proof.Machine

/-- Settles O31: `runFor_readPage` gives either end state; its BUF, its result, the next page and the events it appends
depend on the page, the parameters, the geometry and the chip's answers alone. -/
theorem readPageIsDeterminedByTheChip : Obligations.ReadPageIsDeterminedByTheChip :=
  fun s s' g k bs zs ys hs hs' hrange hpage hparams hgeom hgeom' hg hlen hok hok' hpatient hry hsample
    hry' hsample' => by
  have hcount : g.payload ≤ s.params.bufSize := (Geometry.payload_le hg).trans s.params.le_bufSize
  have hrun := runFor_readPage hs hrange hgeom hlen hcount hok hpatient hry hsample
  have hrun' := runFor_readPage hs' (hpage ▸ hrange) hgeom' hlen (hparams ▸ hcount) hok' (hparams ▸ hpatient)
    (hry'.trans hry) (hsample'.trans hsample)
  rw [hparams, hpage] at hrun'
  exact ⟨_, _, _, pageSetupTrace s.pageCounter ++ readBytesTrace k bs, hrun, hrun', rfl, rfl, rfl, rfl, rfl,
    List.append_assoc .., List.append_assoc ..⟩

end Sys2Proof.Machine
end

section
/-! PROOFS. The startup sequence from reset to RUN or HALTED (R215, R216, R217, R242): its calls and latches composed
into one run, each step of which is a micro-step of W. -/

namespace Sys2Proof.Machine

/-! ### Steps in the startup sequence -/

/-- The startup sequence has W's turns to itself: INIT, with no input listed. -/
def State.Starting (s : State) : Prop := s.phase = .init ∧ s.env.inputs = []

theorem stable_starting : Stable State.Starting := fun _ _ ⟨hphase, hinputs⟩ _ hphase' _ hinputs' =>
  ⟨hphase'.trans hphase, hinputs'.trans hinputs⟩

/-- In INIT with no input listed every step is a micro-step of the startup sequence (R242). -/
theorem State.Starting.step_eq {s : State} (h : s.Starting) : step s = microStep s := by
  obtain ⟨hphase, hinputs⟩ := h
  rw [step_worker s hinputs, workerTurn_init hphase]

/-- The startup sequence at a position. -/
def startupFrame (line : Nat) : Frame := { op := .startup, line := line, loc := 0 }

/-! ### The lines of the startup sequence -/

/-- Lines 1 and 2 of R242 up to the RY poll of the ID read. -/
theorem run_startup_setup {s : State} (hs : s.seq = startupSeq) (hp : s.Starting) :
    MicroRun State.Starting 32 s
      { s with
        seq := [(Op.readBytes 5 .bootId).start, { op := .readId .bootId, line := 3, loc := 0 }, startupFrame 2]
        pins := { s.pins with
          ioDir := .output, ioOut := 0x00#8, cle := false, ale := false, cen := false, wen := true }
        trace := s.trace ++ resetTrace ++ idSetupTrace } :=
  (run_reset stable_starting (fs := [startupFrame 1]) hs hp).trans
    (run_readId_setup stable_starting (d := .bootId) (fs := [startupFrame 2]) rfl hp)

/-- R242 line 3 with an ID that was read. -/
theorem runMicro_checkReady_ok {s : State} (h : s.ret = .ok) :
    runMicro (.checkReady 6) (startupFrame 2) [] s = .next { s with seq := [startupFrame 3] } := by
  cases s
  cases h
  rfl

/-- R242 line 3 with no ID read: the flag is set, and line 7 is next. -/
theorem runMicro_checkReady_notReady {s : State} (h : s.ret = .notReady) :
    runMicro (.checkReady 6) (startupFrame 2) [] s = .next
      { s with seq := [startupFrame 6], flags := s.flags.afterNotReady } := by
  cases s
  cases h
  rfl

/-- Lines 3 to 6 of R242 with an ID that was read: BOOT_ID is valid, and decides GEOM and the flags. -/
theorem run_startup_latch {s : State} (hs : s.seq = [startupFrame 2]) (hret : s.ret = .ok) (hp : s.Starting) :
    MicroRun State.Starting 4 s
      { s with
        seq := [startupFrame 6], bootIdValid := true
        geom := (decodeGeometry s.bootId).or s.geom
        flags := (s.flags.afterGeometry (decodeGeometry s.bootId)).afterWidth (checkIoWidth s.bootId) } := by
  have hready := MicroRun.line hp hs rfl (runMicro_checkReady_ok hret)
  have hvalid := hready.trans (.line (f := startupFrame 3) hp rfl rfl rfl)
  have hgeometry := hvalid.trans (.line (f := startupFrame 4) hp rfl rfl rfl)
  exact hgeometry.trans (.line (f := startupFrame 5) hp rfl rfl rfl)

/-- Line 7 of R242 while W has taken no command: the flags say which phase the startup ends in (R216). -/
theorem runMicro_endStartup {s : State} (h : s.wstate = .waitForCommand) :
    runMicro .endStartup (startupFrame 6) [] s = .next
      { s with seq := [], phase := if s.flags.anyError then .halted else .run } := by
  have hend : s.endStartup = { s with phase := if s.flags.anyError then .halted else .run } := by
    obtain ⟨herror, e⟩ | ⟨herror, e⟩ := s.endStartup_cases <;> simp [e, herror, ← h]
  simp only [runMicro, hend]
  rfl

/-! ### BOOT_ID, the flags and the phase at the end of the startup sequence -/

/-- Five bytes stored into BOOT_ID replace it whole (R27). -/
theorem IdBytes.setBytes_all (id id' : IdBytes) : id'.setBytes 0 [id.b0, id.b1, id.b2, id.b3, id.b4] = id := rfl

/-- The flags after lines 5 and 6 of R242, from those of reset (R35, R217). -/
theorem Flags.after_identification (g : Option Geometry) (accepted : Bool) :
    (Flags.afterGeometry ⟨false, false, false, false⟩ g).afterWidth accepted =
      { geomValid := g.isSome, errGeometry := g.isNone, errIoWidth := !accepted, errNotReady := false } := by
  cases g <;> cases accepted <;> rfl

/-- With an ID read, the startup ends in RUN exactly when both decoders accept it (R216). -/
theorem Flags.phase_after_identification (g : Option Geometry) (accepted : Bool) :
    (if Flags.anyError ⟨g.isSome, g.isNone, !accepted, false⟩ then Phase.halted else .run) =
      if g.isSome = true ∧ accepted = true then .run else .halted := by
  cases g <;> cases accepted <;> rfl

/-! ### The startup sequence as a whole -/

/-- Settles O43: the ID read into BOOT_ID, the latches of its decoders' answers, and the phase by the flags. -/
theorem startupIdentifiesTheChip : Obligations.StartupIdentifiesTheChip := fun p id k n ys zs hpatient => by
  have hsetup := run_startup_setup
    (s := { State.resetFor p with
      env := { inputs := [], ryIn := List.replicate k false ++ true :: ys
               sampleIn := id.b0 :: id.b1 :: id.b2 :: id.b3 :: id.b4 :: zs, freeIndex := n } })
    rfl ⟨rfl, rfl⟩
  have hread := hsetup.trans (run_readBytes stable_starting (d := .bootId) (bs := [id.b0, id.b1, id.b2, id.b3, id.b4])
    rfl le_rfl hpatient rfl rfl ⟨rfl, rfl⟩)
  have hlatch := hread.trans (run_startup_latch rfl rfl ⟨rfl, rfl⟩)
  have hend := hlatch.trans (.line ⟨rfl, rfl⟩ rfl rfl (runMicro_endStartup rfl))
  refine (hend.congr ?_ ?_).runFor_eq fun _ h => h.step_eq
  · simp only [List.length_cons, List.length_nil]
    omega
  · simp [State.resetFor, Dest.idAfter, Dest.bufAfter, IdBytes.setBytes_all, Flags.after_identification,
      Flags.phase_after_identification, Pins.afterRead]

/-- Settles O44: `ReadBytes` gives up, line 3 sets ERR_NOTREADY, and line 7 halts. -/
theorem startupHaltsWhenNotReady : Obligations.StartupHaltsWhenNotReady := fun p n m ys zs htimeout => by
  have hsetup := run_startup_setup
    (s := { State.resetFor p with
      env := { inputs := [], ryIn := List.replicate n false ++ ys, sampleIn := zs, freeIndex := m } })
    rfl ⟨rfl, rfl⟩
  have hgiveUp := hsetup.trans (run_readBytes_givesUp stable_starting rfl htimeout rfl ⟨rfl, rfl⟩)
  have hcheck := hgiveUp.trans (.line ⟨rfl, rfl⟩ rfl rfl (runMicro_checkReady_notReady rfl))
  have hend := hcheck.trans (.line ⟨rfl, rfl⟩ rfl rfl (runMicro_endStartup rfl))
  refine (hend.congr (by omega) ?_).runFor_eq fun _ h => h.step_eq
  simp [State.resetFor, Flags.afterNotReady, Flags.anyError, Pins.afterRead]

end Sys2Proof.Machine
end
